-- ==== Sys2Proof/Word.lean ====
section
/-! DEFINITION. The widths of the TCC's words and their integer reading (00_scope.md R7, R9). -/

namespace Sys2Proof

/-- A command word: 32 bits (30_encoding.md R61). -/
abbrev Word := BitVec 32

/-- A register value, operand or response datum: 16 bits (00_scope.md R6). -/
abbrev Half := BitVec 16

/-- A register address, opcode, selector or resolution byte: 8 bits (00_scope.md R6). -/
abbrev Byte := BitVec 8

end Sys2Proof
end

