-- ==== Sys2Proof/Syntax.lean ====
section
/-! DEFINITION. The vocabulary of the TCC: the command word's fields (30_encoding.md R61), one constructor of `Instr` per
row of opcode_table.json (R63, R64, R77), the names of a rejected word, and the enumerations of 10_state.md R19, R21 and
60_exceptions.md R111. -/

namespace Sys2Proof

/-- The three fields of a command word (30_encoding.md R61). -/
structure Cmd where
  opc  : Byte
  sel  : Byte
  opnd : Half
  deriving DecidableEq, Repr, Inhabited

/-- The nine configuration flags, in the order of their index (30_encoding.md R64, 10_state.md R30). -/
inductive Flag where
  | alertMode
  | alertPol
  | alertSel
  | alertCtrl
  | alertStat
  | intClear
  | winLock
  | critLock
  | shutdown
  deriving DecidableEq, Repr, Inhabited

/-- The three limit registers (30_encoding.md R64). -/
inductive LimitReg where
  | upper
  | lower
  | crit
  deriving DecidableEq, Repr, Inhabited

/-- The two register styles of the codec (00_scope.md R3): A, ambient, and T, threshold. -/
inductive Style where
  | ambient
  | threshold
  deriving DecidableEq, Repr, Inhabited

/-- The commands, one constructor per row of opcode_table.json. A constructor carries `OPND` where 30_encoding.md R66 leaves
it free and nothing where R66 fixes it, so every term is a legal command. -/
inductive Instr where
  | deca (raw : Half)
  | dect (raw : Half)
  | encA (temp : Half)
  | encT (temp : Half)
  | setfAlertMode
  | setfAlertPol
  | setfAlertSel
  | setfAlertCtrl
  | setfAlertStat
  | setfIntClear
  | setfWinLock
  | setfCritLock
  | setfShutdown
  | clrfAlertMode
  | clrfAlertPol
  | clrfAlertSel
  | clrfAlertCtrl
  | clrfAlertStat
  | clrfIntClear
  | clrfWinLock
  | clrfCritLock
  | clrfShutdown
  | sethyst (temp : Half)
  | setres (temp : Half)
  | getres
  | islock
  | setlimUpper (temp : Half)
  | setlimLower (temp : Half)
  | setlimCrit (temp : Half)
  | getlimUpper
  | getlimLower
  | getlimCrit
  | getamb
  | getalert
  | beginCheck
  deriving DecidableEq, Repr, Inhabited

/-- Why a word is no command: the part of `legal` (30_encoding.md R66) it fails first. -/
inductive Reject where
  /-- `OPC` is not one of the fourteen opcodes (R68). -/
  | reservedOpcode
  /-- `SEL` is out of the opcode's range. -/
  | selectorOutOfRange
  /-- `OPND` must be zero for this opcode and is not. -/
  | operandNotZero
  deriving DecidableEq, Repr, Inhabited

/-- `ST`, the sequencer state (10_state.md R21). -/
inductive SeqState where
  | idle
  | req
  | wait
  | resp
  deriving DecidableEq, Repr, Inhabited

/-- `PH`: which transaction of the command is in flight (10_state.md R21). -/
inductive Phase where
  | first
  | second
  deriving DecidableEq, Repr, Inhabited

/-- `REQ_OP`: the four transport transactions (20_memory.md R42). -/
inductive ReqOp where
  | rd8
  | rd16
  | wr8
  | wr16
  deriving DecidableEq, Repr, Inhabited

/-- One transport request as the port shows it (10_state.md R19). -/
structure Request where
  op    : ReqOp
  addr  : Byte
  wdata : Half
  deriving DecidableEq, Repr, Inhabited

/-- The outcomes a command can end with (60_exceptions.md R111). -/
inductive Status where
  | ok
  | invalidArgument
  | transportError
  | illegalCommand
  | reservedCode
  deriving DecidableEq, Repr, Inhabited

end Sys2Proof
end

