-- ==== Sys2Proof/WellFormed.lean ====
section
/-! DEFINITION. When a command word is legal (30_encoding.md R66), on its three fields. Every term of `Instr` is legal by
its type (`Sys2Proof.Laws.Encoding.legal_encode`), so this check is the one a raw word has to pass. -/

namespace Sys2Proof

/-- The fourteen opcodes (30_encoding.md R63, R66). -/
def Cmd.opcodes : List Nat :=
  [0x01, 0x02, 0x03, 0x10, 0x11, 0x12, 0x13, 0x14, 0x15, 0x20, 0x21, 0x22, 0x23, 0x30]

/-- The largest legal selector of an opcode (30_encoding.md R66, second clause). -/
def Cmd.maxSel (opc : Nat) : Nat :=
  if opc = 0x03 then 0x01
  else if opc = 0x10 ∨ opc = 0x11 then 0x08
  else if opc = 0x20 ∨ opc = 0x21 then 0x02
  else 0x00

/-- The opcodes whose operand must be zero (30_encoding.md R66, third clause). -/
def Cmd.zeroOperandOpcodes : List Nat := [0x10, 0x11, 0x14, 0x15, 0x21, 0x22, 0x23, 0x30]

/-- `legal(CMD)` of 30_encoding.md R66, clause by clause. -/
def Cmd.legal (c : Cmd) : Bool :=
  Cmd.opcodes.contains c.opc.toNat
    && decide (c.sel.toNat ≤ Cmd.maxSel c.opc.toNat)
    && (!Cmd.zeroOperandOpcodes.contains c.opc.toNat || decide (c.opnd = 0))

end Sys2Proof
end

