-- ==== Sys2Proof/Decode.lean ====
section
/-! DEFINITION. The decoder (30_encoding.md R61, R63, R64, R77), total on all 2^32 words and rejecting by name, and after it
the encoder, written from the same tables. The command port carries the word whole, so no byte order is involved (log 9). -/

namespace Sys2Proof

/-- `CMD.OPC`, `CMD.SEL` and `CMD.OPND` of a word (30_encoding.md R61). -/
def fieldsOf (w : Word) : Cmd :=
  { opc := w.extractLsb' 24 8, sel := w.extractLsb' 16 8, opnd := w.extractLsb' 0 16 }

/-- The word with the given fields: `OPC ++ SEL ++ OPND` (30_encoding.md R61). -/
def wordOf (c : Cmd) : Word := (c.opc ++ c.sel) ++ c.opnd

/-- A command with `SEL` fixed at 0 and a free operand. -/
def decodeSelZero (c : Cmd) (i : Instr) : Except Reject Instr :=
  if c.sel = 0 then .ok i else .error .selectorOutOfRange

/-- A command whose operand must be zero (30_encoding.md R66). -/
def decodeOpndZero (c : Cmd) (i : Instr) : Except Reject Instr :=
  if c.opnd = 0 then .ok i else .error .operandNotZero

/-- A command with `SEL` fixed at 0 and an operand that must be zero. -/
def decodeBare (c : Cmd) (i : Instr) : Except Reject Instr :=
  if c.sel = 0 then decodeOpndZero c i else .error .selectorOutOfRange

/-- ENC's style selector (30_encoding.md R64). -/
def decodeEnc (c : Cmd) : Except Reject Instr :=
  match c.sel.toNat with
  | 0x00 => .ok (.encA c.opnd)
  | 0x01 => .ok (.encT c.opnd)
  | _    => .error .selectorOutOfRange

/-- SETF's flag index (30_encoding.md R64). -/
def decodeSetf (c : Cmd) : Except Reject Instr :=
  match c.sel.toNat with
  | 0x00 => decodeOpndZero c .setfAlertMode
  | 0x01 => decodeOpndZero c .setfAlertPol
  | 0x02 => decodeOpndZero c .setfAlertSel
  | 0x03 => decodeOpndZero c .setfAlertCtrl
  | 0x04 => decodeOpndZero c .setfAlertStat
  | 0x05 => decodeOpndZero c .setfIntClear
  | 0x06 => decodeOpndZero c .setfWinLock
  | 0x07 => decodeOpndZero c .setfCritLock
  | 0x08 => decodeOpndZero c .setfShutdown
  | _    => .error .selectorOutOfRange

/-- CLRF's flag index (30_encoding.md R64). -/
def decodeClrf (c : Cmd) : Except Reject Instr :=
  match c.sel.toNat with
  | 0x00 => decodeOpndZero c .clrfAlertMode
  | 0x01 => decodeOpndZero c .clrfAlertPol
  | 0x02 => decodeOpndZero c .clrfAlertSel
  | 0x03 => decodeOpndZero c .clrfAlertCtrl
  | 0x04 => decodeOpndZero c .clrfAlertStat
  | 0x05 => decodeOpndZero c .clrfIntClear
  | 0x06 => decodeOpndZero c .clrfWinLock
  | 0x07 => decodeOpndZero c .clrfCritLock
  | 0x08 => decodeOpndZero c .clrfShutdown
  | _    => .error .selectorOutOfRange

/-- SETLIM's limit selector (30_encoding.md R64, 42_limits_identity.md R103). -/
def decodeSetlim (c : Cmd) : Except Reject Instr :=
  match c.sel.toNat with
  | 0x00 => .ok (.setlimUpper c.opnd)
  | 0x01 => .ok (.setlimLower c.opnd)
  | 0x02 => .ok (.setlimCrit c.opnd)
  | _    => .error .selectorOutOfRange

/-- GETLIM's limit selector (30_encoding.md R64, 42_limits_identity.md R103). -/
def decodeGetlim (c : Cmd) : Except Reject Instr :=
  match c.sel.toNat with
  | 0x00 => decodeOpndZero c .getlimUpper
  | 0x01 => decodeOpndZero c .getlimLower
  | 0x02 => decodeOpndZero c .getlimCrit
  | _    => .error .selectorOutOfRange

/-- The opcode map (30_encoding.md R63, R77) on the three fields. -/
def decodeFields (c : Cmd) : Except Reject Instr :=
  match c.opc.toNat with
  | 0x01 => decodeSelZero c (.deca c.opnd)
  | 0x02 => decodeSelZero c (.dect c.opnd)
  | 0x03 => decodeEnc c
  | 0x10 => decodeSetf c
  | 0x11 => decodeClrf c
  | 0x12 => decodeSelZero c (.sethyst c.opnd)
  | 0x13 => decodeSelZero c (.setres c.opnd)
  | 0x14 => decodeBare c .getres
  | 0x15 => decodeBare c .islock
  | 0x20 => decodeSetlim c
  | 0x21 => decodeGetlim c
  | 0x22 => decodeBare c .getamb
  | 0x23 => decodeBare c .getalert
  | 0x30 => decodeBare c .beginCheck
  | _    => .error .reservedOpcode

/-- The decoder: every word is a command or rejected by name (30_encoding.md R66 to R68, R77). -/
def decode (w : Word) : Except Reject Instr := decodeFields (fieldsOf w)

/-- The fields of a command (30_encoding.md R63, R64, R72). -/
def encodeFields (i : Instr) : Cmd :=
  match i with
  | .deca raw => { opc := 0x01, sel := 0x00, opnd := raw }
  | .dect raw => { opc := 0x02, sel := 0x00, opnd := raw }
  | .encA t => { opc := 0x03, sel := 0x00, opnd := t }
  | .encT t => { opc := 0x03, sel := 0x01, opnd := t }
  | .setfAlertMode => { opc := 0x10, sel := 0x00, opnd := 0 }
  | .setfAlertPol => { opc := 0x10, sel := 0x01, opnd := 0 }
  | .setfAlertSel => { opc := 0x10, sel := 0x02, opnd := 0 }
  | .setfAlertCtrl => { opc := 0x10, sel := 0x03, opnd := 0 }
  | .setfAlertStat => { opc := 0x10, sel := 0x04, opnd := 0 }
  | .setfIntClear => { opc := 0x10, sel := 0x05, opnd := 0 }
  | .setfWinLock => { opc := 0x10, sel := 0x06, opnd := 0 }
  | .setfCritLock => { opc := 0x10, sel := 0x07, opnd := 0 }
  | .setfShutdown => { opc := 0x10, sel := 0x08, opnd := 0 }
  | .clrfAlertMode => { opc := 0x11, sel := 0x00, opnd := 0 }
  | .clrfAlertPol => { opc := 0x11, sel := 0x01, opnd := 0 }
  | .clrfAlertSel => { opc := 0x11, sel := 0x02, opnd := 0 }
  | .clrfAlertCtrl => { opc := 0x11, sel := 0x03, opnd := 0 }
  | .clrfAlertStat => { opc := 0x11, sel := 0x04, opnd := 0 }
  | .clrfIntClear => { opc := 0x11, sel := 0x05, opnd := 0 }
  | .clrfWinLock => { opc := 0x11, sel := 0x06, opnd := 0 }
  | .clrfCritLock => { opc := 0x11, sel := 0x07, opnd := 0 }
  | .clrfShutdown => { opc := 0x11, sel := 0x08, opnd := 0 }
  | .sethyst t => { opc := 0x12, sel := 0x00, opnd := t }
  | .setres t => { opc := 0x13, sel := 0x00, opnd := t }
  | .getres => { opc := 0x14, sel := 0x00, opnd := 0 }
  | .islock => { opc := 0x15, sel := 0x00, opnd := 0 }
  | .setlimUpper t => { opc := 0x20, sel := 0x00, opnd := t }
  | .setlimLower t => { opc := 0x20, sel := 0x01, opnd := t }
  | .setlimCrit t => { opc := 0x20, sel := 0x02, opnd := t }
  | .getlimUpper => { opc := 0x21, sel := 0x00, opnd := 0 }
  | .getlimLower => { opc := 0x21, sel := 0x01, opnd := 0 }
  | .getlimCrit => { opc := 0x21, sel := 0x02, opnd := 0 }
  | .getamb => { opc := 0x22, sel := 0x00, opnd := 0 }
  | .getalert => { opc := 0x23, sel := 0x00, opnd := 0 }
  | .beginCheck => { opc := 0x30, sel := 0x00, opnd := 0 }

/-- The encoder: the one word of a command (30_encoding.md R61, R72). -/
def encode (i : Instr) : Word := wordOf (encodeFields i)

/-- What the decoder reads from a table row's bits, numbered as opcode_table.json numbers them: bit 0 is the least
significant bit of the one 32-bit word. A number with a bit above bit 31 is no command word. -/
def decodeTableWord (nbits w : Nat) : Option Instr :=
  let bits := w % 2 ^ nbits
  if bits < 2 ^ 32 then (decode (BitVec.ofNat 32 bits)).toOption else none

/-- The rows of opcode_table.json as (match, mask), in the table's order (30_encoding.md R77). -/
def opcodeRows : List (Word × Word) :=
  [(0x01000000, 0xFFFF0000), (0x02000000, 0xFFFF0000), (0x03000000, 0xFFFF0000), (0x03010000, 0xFFFF0000)]
    ++ [(0x10000000, 0xFFFFFFFF), (0x10010000, 0xFFFFFFFF), (0x10020000, 0xFFFFFFFF), (0x10030000, 0xFFFFFFFF),
        (0x10040000, 0xFFFFFFFF), (0x10050000, 0xFFFFFFFF), (0x10060000, 0xFFFFFFFF), (0x10070000, 0xFFFFFFFF),
        (0x10080000, 0xFFFFFFFF)]
    ++ [(0x11000000, 0xFFFFFFFF), (0x11010000, 0xFFFFFFFF), (0x11020000, 0xFFFFFFFF), (0x11030000, 0xFFFFFFFF),
        (0x11040000, 0xFFFFFFFF), (0x11050000, 0xFFFFFFFF), (0x11060000, 0xFFFFFFFF), (0x11070000, 0xFFFFFFFF),
        (0x11080000, 0xFFFFFFFF)]
    ++ [(0x12000000, 0xFFFF0000), (0x13000000, 0xFFFF0000), (0x14000000, 0xFFFFFFFF), (0x15000000, 0xFFFFFFFF)]
    ++ [(0x20000000, 0xFFFF0000), (0x20010000, 0xFFFF0000), (0x20020000, 0xFFFF0000), (0x21000000, 0xFFFFFFFF),
        (0x21010000, 0xFFFFFFFF), (0x21020000, 0xFFFFFFFF)]
    ++ [(0x22000000, 0xFFFFFFFF), (0x23000000, 0xFFFFFFFF), (0x30000000, 0xFFFFFFFF)]

end Sys2Proof
end

