-- ==== Sys2Proof/Config.lean ====
section
/-! DEFINITION. What one TCC is built with (00_scope.md R6), the input signals the outside world drives (10_state.md R17 to
R20), and the FREE VALUES: what the spec leaves unspecified, as constants with no body, so that no proof can know them. -/

namespace Sys2Proof

/-- The parameters of 00_scope.md R6 that the spec leaves OPEN. -/
structure Config where
  /-- `NATIVE_LE`: the transport's native 16-bit write puts the low byte on the wire first. -/
  nativeLE : Bool
  deriving DecidableEq, Repr, Inhabited

/-- The default of 00_scope.md R6: `NATIVE_LE` is true. -/
def Config.default : Config := { nativeLE := true }

/-- `DEVICE_ADDR` of 00_scope.md R6. It belongs to the transport; the TCC never sends it, and nothing here reads it. -/
def Config.deviceAddr : Nat := 0x18

/-- The input signals of the three ports and the reset, as sampled at one rising edge of `clk` (10_state.md R17 to R20). -/
structure Inputs where
  rst        : Bool
  cmdValid   : Bool
  cmdWord    : Word
  rspReady   : Bool
  trReqReady : Bool
  trRspValid : Bool
  trRspErr   : Bool
  trRspRdata : Half
  deriving DecidableEq, Repr, Inhabited

/-- Every input signal at 0. -/
def Inputs.quiet : Inputs :=
  { rst := false, cmdValid := false, cmdWord := 0, rspReady := false, trReqReady := false, trRspValid := false,
    trRspErr := false, trRspRdata := 0 }

/-- Which unspecified value is meant: a register after a reset edge (10_state.md R36) or an output outside the state that
makes it valid (10_state.md R21). -/
inductive FreeSite where
  | resetCmd | resetPh | resetOld | resetReqOp | resetReqAddr | resetReqWdata | resetRspStatus | resetRspData
  | outReqOp | outReqAddr | outReqWdata | outRspStatus | outRspData
  deriving DecidableEq, Repr, Inhabited

/-- The input signals at the edge of that number, once the listed samples are used up: what the outside world does is
anything (10_state.md R39; log 1). DESIGN CHOICE. -/
opaque Config.freeInputs : Nat → Inputs

/-- An unspecified 32-bit value, at an edge, for a register that held the given value (log 5). DESIGN CHOICE. -/
opaque Config.freeWord : FreeSite → Nat → Word → Word

/-- An unspecified 16-bit value, at an edge, for a signal or register that held the given value (logs 5, 6). DESIGN CHOICE. -/
opaque Config.freeHalf : FreeSite → Nat → Half → Half

/-- An unspecified 8-bit value, likewise (logs 5, 6). DESIGN CHOICE. -/
opaque Config.freeByte : FreeSite → Nat → Byte → Byte

/-- An unspecified 3-bit value, likewise (logs 5, 6). DESIGN CHOICE. -/
opaque Config.freeStatus : FreeSite → Nat → BitVec 3 → BitVec 3

/-- An unspecified transaction kind, likewise (logs 5, 6). DESIGN CHOICE. -/
opaque Config.freeReqOp : FreeSite → Nat → ReqOp → ReqOp

/-- An unspecified phase bit, likewise (log 5). DESIGN CHOICE. -/
opaque Config.freePhase : FreeSite → Nat → Phase → Phase

end Sys2Proof
end

