-- ==== Sys2Proof/Machine/Operands.lean ====
section
/-! DEFINITION. The operand forms: how a 16-bit operand or register value is read as a number (00_scope.md R9, R10), the byte
order of 16-bit writes (20_memory.md R45), the closed operand lists of SETHYST and SETRES (41_config.md R95, R97) and the
limit selector (42_limits_identity.md R103). -/

namespace Sys2Proof.Machine

/-- `to_s16(v)`: the two's complement reading (00_scope.md R9). -/
def toS16 (v : Half) : Int := v.toInt

/-- `to_u16(x)`: the two's complement pattern (00_scope.md R9). -/
def toU16 (x : Int) : Half := BitVec.ofInt 16 x

/-- `zext_16` of a byte (00_scope.md R9). -/
def zext16 (b : Byte) : Half := b.setWidth 16

/-- The low byte `v[7:0]` of a 16-bit value (00_scope.md R7). -/
def lowByte (v : Half) : Byte := v.extractLsb' 0 8

/-- The high byte `v[15:8]` of a 16-bit value (00_scope.md R7). -/
def highByte (v : Half) : Byte := v.extractLsb' 8 8

/-- `bswap16(v)` (00_scope.md R9). -/
def bswap16 (v : Half) : Half := lowByte v ++ highByte v

/-- `W(v)`: the byte-order-normalised word of a 16-bit write (20_memory.md R45). -/
def wireWord (nativeLE : Bool) (v : Half) : Half := if nativeLE then bswap16 v else v

/-- The two bytes a transport puts on the wire for the 16 bits it is given, first byte first: low byte first when its native
write is little-endian (00_scope.md R6, 20_memory.md R45). -/
def bytesOnWire (nativeLE : Bool) (w : Half) : List Byte :=
  if nativeLE then [lowByte w, highByte w] else [highByte w, lowByte w]

/-- A temperature word's value in degrees Celsius (00_scope.md R10). -/
def celsius (t : Half) : ℚ := (toS16 t : ℚ) / 16

/-- `hystCode(OPND)`: the hysteresis code of a legal operand (41_config.md R95, 10_state.md R31). -/
def hystCode (opnd : Half) : Option Half :=
  match opnd.toNat with
  | 0x0000 => some 0
  | 0x0018 => some 1
  | 0x0030 => some 2
  | 0x0060 => some 3
  | _ => none

/-- `resCode(OPND)`: the resolution byte of a legal operand (41_config.md R97, 10_state.md R32). -/
def resCode (opnd : Half) : Option Byte :=
  match opnd.toNat with
  | 0x0008 => some 0
  | 0x0004 => some 1
  | 0x0002 => some 2
  | 0x0001 => some 3
  | _ => none

/-- `resStep(code)` in sixteenths, `none` above code 3 (41_config.md R97, R99). -/
def resStep (code : Byte) : Option Byte :=
  match code.toNat with
  | 0 => some 0x08
  | 1 => some 0x04
  | 2 => some 0x02
  | 3 => some 0x01
  | _ => none

/-- The addresses of the device register map (10_state.md R27). -/
def addrConfig : Byte := 0x01
def addrAmbient : Byte := 0x05
def addrManufacturerId : Byte := 0x06
def addrDeviceId : Byte := 0x07
def addrResolution : Byte := 0x08

/-- `limAddr(sel)` (42_limits_identity.md R103). -/
def limAddr : LimitReg → Byte
  | .upper => 0x02
  | .lower => 0x03
  | .crit => 0x04

/-- `MFR_ID_EXPECTED` (00_scope.md R6, 10_state.md R33). -/
def manufacturerIdExpected : Half := 0x0054

/-- `DEV_ID_EXPECTED` (00_scope.md R6, 10_state.md R33). -/
def deviceIdExpected : Half := 0x0400

end Sys2Proof.Machine
end

