-- ==== Sys2Proof/Machine/Pseudocode.lean ====
section
/-! DEFINITION. The pseudocode every command's rule is written in (00_scope.md R11, R12): the two ends, and the transport
primitives of 20_memory.md R43 to R47, each followed by the rest of the command as a function of what it yields. -/

namespace Sys2Proof.Machine

/-- A command's pseudocode, at its next effect (00_scope.md R11). -/
inductive Program where
  /-- `respond(d)` -/
  | respond (d : Half)
  /-- `raise E(info)` -/
  | raise (e : Status) (info : Half)
  /-- `MemRead(addr, 1)`: the rest takes the byte read -/
  | read8 (addr : Byte) (rest : Byte → Program)
  /-- `MemRead(addr, 2)`: the rest takes the logical value read -/
  | read16 (addr : Byte) (rest : Half → Program)
  /-- `MemWrite(addr, 1, b)` -/
  | write8 (addr : Byte) (b : Byte) (rest : Program)
  /-- `MemWrite(addr, 2, v)` -/
  | write16 (addr : Byte) (v : Half) (rest : Program)

/-- What an illegal word runs (30_encoding.md R67, R77). -/
def illegalProgram : Program := .raise .illegalCommand 0x0000

/-- The 16-bit datum a transport answer carries to a primitive: the byte alone for an 8-bit read (20_memory.md R43, R47). -/
def Program.readValue (p : Program) (rdata : Half) : Half :=
  match p with
  | .read8 _ _ => zext16 (lowByte rdata)
  | _ => rdata

/-- The request a primitive issues (20_memory.md R42, R43, R45, R46); `none` at an end. -/
def Program.request (nativeLE : Bool) (p : Program) : Option Request :=
  match p with
  | .respond _ => none
  | .raise _ _ => none
  | .read8 addr _ => some { op := .rd8, addr := addr, wdata := 0x0000 }
  | .read16 addr _ => some { op := .rd16, addr := addr, wdata := 0x0000 }
  | .write8 addr b _ => some { op := .wr8, addr := addr, wdata := zext16 b }
  | .write16 addr v _ => some { op := .wr16, addr := addr, wdata := wireWord nativeLE v }

/-- The command after its next primitive, whose good answer carries the given datum; `none` at an end. -/
def Program.resume (p : Program) (rdata : Half) : Option Program :=
  match p with
  | .respond _ => none
  | .raise _ _ => none
  | .read8 _ rest => some (rest (lowByte rdata))
  | .read16 _ rest => some (rest rdata)
  | .write8 _ _ rest => some rest
  | .write16 _ _ rest => some rest

/-- Whether the next effect is a read (10_state.md R22, the update of `OLD`). -/
def Program.isRead (p : Program) : Bool :=
  match p with
  | .read8 _ _ => true
  | .read16 _ _ => true
  | _ => false

/-- The command at the transaction that `PH` says is in flight, with `OLD` the value its first read gave (10_state.md R21,
R22): where the sequencer goes on from in state WAIT. -/
def Program.inFlight (p : Program) (ph : Phase) (old : Half) : Option Program :=
  match ph with
  | .first => some p
  | .second => p.resume old

/-- One answer of the transport (10_state.md R19). -/
structure Answer where
  err   : Bool
  rdata : Half
  deriving DecidableEq, Repr

/-- A command seen as transactions (00_scope.md R12, R14): the requests it issues in order, and the response it ends with,
or `none` while it still waits for an answer. -/
structure Transcript where
  requests : List Request
  response : Option (Status × Half)
  deriving DecidableEq, Repr

/-- The transaction-level meaning of a command (00_scope.md R12; 60_exceptions.md R115, R119): what it issues and answers,
given the answers the transport gives, in order. A failed transaction ends it. -/
def Program.transact (nativeLE : Bool) : Program → List Answer → Transcript
  | .respond d, _ => { requests := [], response := some (.ok, d) }
  | .raise e info, _ => { requests := [], response := some (e, info) }
  | .read8 addr _, [] => { requests := [{ op := .rd8, addr := addr, wdata := 0 }], response := none }
  | .read8 addr rest, a :: as =>
    if a.err then { requests := [{ op := .rd8, addr := addr, wdata := 0 }], response := some (.transportError, 0) }
    else
      let t := (rest (lowByte a.rdata)).transact nativeLE as
      { t with requests := { op := .rd8, addr := addr, wdata := 0 } :: t.requests }
  | .read16 addr _, [] => { requests := [{ op := .rd16, addr := addr, wdata := 0 }], response := none }
  | .read16 addr rest, a :: as =>
    if a.err then { requests := [{ op := .rd16, addr := addr, wdata := 0 }], response := some (.transportError, 0) }
    else
      let t := (rest a.rdata).transact nativeLE as
      { t with requests := { op := .rd16, addr := addr, wdata := 0 } :: t.requests }
  | .write8 addr b _, [] => { requests := [{ op := .wr8, addr := addr, wdata := zext16 b }], response := none }
  | .write8 addr b rest, a :: as =>
    if a.err then
      { requests := [{ op := .wr8, addr := addr, wdata := zext16 b }], response := some (.transportError, 0) }
    else
      let t := rest.transact nativeLE as
      { t with requests := { op := .wr8, addr := addr, wdata := zext16 b } :: t.requests }
  | .write16 addr v _, [] =>
    { requests := [{ op := .wr16, addr := addr, wdata := wireWord nativeLE v }], response := none }
  | .write16 addr v rest, a :: as =>
    if a.err then
      { requests := [{ op := .wr16, addr := addr, wdata := wireWord nativeLE v }], response := some (.transportError, 0) }
    else
      let t := rest.transact nativeLE as
      { t with requests := { op := .wr16, addr := addr, wdata := wireWord nativeLE v } :: t.requests }

end Sys2Proof.Machine
end

