-- ==== Sys2Proof/Machine/State.lean ====
section
/-! DEFINITION. What the TCC holds (10_state.md R21), with the parameter and the input signals the step reads beside it, and
the reasons a step can stop. -/

namespace Sys2Proof.Machine

/-- The machine. The first nine fields are the whole table of 10_state.md R21; `cfg` is the parameter of 00_scope.md R6
(log 3); `pins`, `script` and `edges` are the model's own and hold the outside world (log 1). -/
structure State where
  /-- `ST` -/
  st : SeqState
  /-- `CMD` -/
  cmd : Word
  /-- `PH` -/
  ph : Phase
  /-- `OLD` -/
  old : Half
  /-- `REQ_OP` -/
  reqOp : ReqOp
  /-- `REQ_ADDR` -/
  reqAddr : Byte
  /-- `REQ_WDATA` -/
  reqWdata : Half
  /-- `RSP_STATUS` -/
  rspStatus : BitVec 3
  /-- `RSP_DATA` -/
  rspData : Half
  /-- The parameters, fixed for the life of the block (10_state.md R39). -/
  cfg : Config
  /-- The input signals at the latest rising edge. -/
  pins : Inputs
  /-- The input signals at the coming edges, next first; past its end they are free (`Config.freeInputs`). -/
  script : List Inputs
  /-- How many rising edges have passed: the index of the free values. -/
  edges : Nat
  deriving DecidableEq, Repr

/-- The reasons a step can stop. The TCC itself never stops (60_exceptions.md R119, R120). -/
inductive Fault where
  /-- Raised by the edge in state WAIT that takes a good response when the latched command has no transaction pending
  there. No run reaches such a state (`Obligations.StepKeepsConsistent`, `Obligations.ConsistentStepGoesOn`) and
  10_state.md R22 gives it no effect (log 8). Safe. -/
  | noTransactionPending
  deriving DecidableEq, Repr

/-- The reasons the model has no meaning to give. -/
inductive Refusal where
  /-- The arm of `exec` for an instruction that has no meaning yet. No arm is in that case. Safe. -/
  | notModelled (mnemonic : String)
  deriving DecidableEq, Repr

/-- The machine right after reset: `ST` is IDLE (10_state.md R36) and `NATIVE_LE` its default (00_scope.md R6). The other
registers are unspecified there; the values here are the model's, DESIGN CHOICE, log 4. -/
def State.reset : State :=
  { st := .idle, cmd := 0, ph := .first, old := 0, reqOp := .rd8, reqAddr := 0, reqWdata := 0, rspStatus := 0, rspData := 0,
    cfg := Config.default, pins := Inputs.quiet, script := [], edges := 0 }

/-- The output signals of the three ports (10_state.md R17 to R19). -/
structure Outputs where
  cmdReady   : Bool
  rspValid   : Bool
  rspStatus  : BitVec 3
  rspData    : Half
  trReqValid : Bool
  trReqOp    : BitVec 2
  trReqAddr  : Byte
  trReqWdata : Half
  deriving DecidableEq, Repr

end Sys2Proof.Machine
end

