-- ==== Sys2Proof/Machine/Ops.lean ====
section
/-! DEFINITION. The shared operations of the sequencer (10_state.md R22): sampling the inputs, accepting a command, ending
one with a status (the TCC's only kind of exception, 60_exceptions.md R119) and returning from it by the delivery of the
response (R120), offering a request, taking an answer, reset, and the output signals. -/

namespace Sys2Proof.Machine

/-- `rsp_status` codes (60_exceptions.md R111). -/
def statusCode : Status → BitVec 3
  | .ok => 0
  | .invalidArgument => 1
  | .transportError => 2
  | .illegalCommand => 3
  | .reservedCode => 4

/-- `tr_req_op` codes (10_state.md R19, 20_memory.md R42). -/
def reqOpCode : ReqOp → BitVec 2
  | .rd8 => 0
  | .rd16 => 1
  | .wr8 => 2
  | .wr16 => 3

/-- The next rising edge samples the input signals: the next listed ones, or free ones past the list's end (log 1). -/
def sample (s : State) : State :=
  match s.script with
  | [] => { s with pins := Config.freeInputs s.edges, edges := s.edges + 1 }
  | p :: rest => { s with pins := p, script := rest, edges := s.edges + 1 }

/-- Accepting a command: `CMD <- cmd_word; PH <- 0` (10_state.md R22). -/
def accept (w : Word) (s : State) : State := { s with cmd := w, ph := .first }

/-- `respond(d)`: `RSP_STATUS <- OK; RSP_DATA <- d; ST <- RESP` (10_state.md R22). -/
def respondWith (d : Half) (s : State) : State := { s with rspStatus := statusCode .ok, rspData := d, st := .resp }

/-- `raise E(info)`, the one way an error is taken: `RSP_STATUS <- E; RSP_DATA <- info; ST <- RESP`. Nothing is saved, no
mode changes and no control moves (10_state.md R22, 60_exceptions.md R119). -/
def raiseError (e : Status) (info : Half) (s : State) : State :=
  { s with rspStatus := statusCode e, rspData := info, st := .resp }

/-- Offering a request: load `REQ_*` and go to REQ, with `PH` saying which transaction it is (10_state.md R22). -/
def offerRequest (ph : Phase) (r : Request) (s : State) : State :=
  { s with ph := ph, reqOp := r.op, reqAddr := r.addr, reqWdata := r.wdata, st := .req }

/-- Runs pseudocode up to its next effect (10_state.md R22). `ph` is the number of the transaction it would issue. -/
def runToEffect (ph : Phase) (p : Program) (s : State) : State :=
  match p with
  | .respond d => respondWith d s
  | .raise e info => raiseError e info s
  | .read8 addr _ => offerRequest ph { op := .rd8, addr := addr, wdata := 0x0000 } s
  | .read16 addr _ => offerRequest ph { op := .rd16, addr := addr, wdata := 0x0000 } s
  | .write8 addr b _ => offerRequest ph { op := .wr8, addr := addr, wdata := zext16 b } s
  | .write16 addr v _ => offerRequest ph { op := .wr16, addr := addr, wdata := wireWord s.cfg.nativeLE v } s

/-- State REQ: the request is issued when the transport takes it, and is held until then (10_state.md R22, R24). -/
def requestEdge (s : State) : State := if s.pins.trReqReady then { s with st := .wait } else s

/-- State RESP: the response is delivered when the host takes it, and is held until then. The delivery is the return from an
error as from a success (10_state.md R22, R26; 60_exceptions.md R120). -/
def deliverEdge (s : State) : State := if s.pins.rspReady then { s with st := .idle } else s

/-- `OLD` after a good answer to the command at `q`: a first read's value is kept (10_state.md R22). -/
def keepOld (q : Program) (s : State) : State :=
  if s.ph = .first ∧ q.isRead then { s with old := q.readValue s.pins.trRspRdata } else s

/-- State WAIT: the answer to the request in flight. An error answer ends the command with TransportError; a good one goes
on with the command's pseudocode (10_state.md R22, 60_exceptions.md R115). -/
def answerEdge (p : Program) (s : State) : Host.Outcome State Fault Refusal :=
  if s.pins.trRspValid then
    if s.pins.trRspErr then .next (raiseError .transportError 0x0000 s)
    else
      match p.inFlight s.ph s.old with
      | none => .fault .noTransactionPending
      | some q =>
        match q.resume s.pins.trRspRdata with
        | none => .fault .noTransactionPending
        | some rest => .next (runToEffect .second rest (keepOld q s))
  else .next s

/-- One rising edge of the sequencer with `rst == 0` for the command with the given pseudocode: the edge that accepts it
(state IDLE, the word already latched by `accept`), and every later edge up to the delivery of its response
(10_state.md R22). Every instruction's meaning is this, at its own pseudocode (log 2). -/
def commandEdge (p : Program) (s : State) : Host.Outcome State Fault Refusal :=
  match s.st with
  | .idle => .next (runToEffect .first p s)
  | .req => .next (requestEdge s)
  | .wait => answerEdge p s
  | .resp => .next (deliverEdge s)

/-- A rising edge with `rst == 1`: `ST <- IDLE`, every other register of 10_state.md R21 keeps or takes an unspecified
value, which is a free value here (10_state.md R36, log 5). -/
def resetEdge (s : State) : State :=
  { s with
    st := .idle
    cmd := Config.freeWord .resetCmd s.edges s.cmd
    ph := Config.freePhase .resetPh s.edges s.ph
    old := Config.freeHalf .resetOld s.edges s.old
    reqOp := Config.freeReqOp .resetReqOp s.edges s.reqOp
    reqAddr := Config.freeByte .resetReqAddr s.edges s.reqAddr
    reqWdata := Config.freeHalf .resetReqWdata s.edges s.reqWdata
    rspStatus := Config.freeStatus .resetRspStatus s.edges s.rspStatus
    rspData := Config.freeHalf .resetRspData s.edges s.rspData }

/-- The output signals (10_state.md R17 to R19, R21). A request is shown in REQ and a response in RESP; elsewhere their
values are unspecified, which is a free value here (log 6). -/
def outputs (s : State) : Outputs :=
  { cmdReady := decide (s.st = .idle)
    rspValid := decide (s.st = .resp)
    rspStatus := if s.st = .resp then s.rspStatus else Config.freeStatus .outRspStatus s.edges s.rspStatus
    rspData := if s.st = .resp then s.rspData else Config.freeHalf .outRspData s.edges s.rspData
    trReqValid := decide (s.st = .req)
    trReqOp := reqOpCode (if s.st = .req then s.reqOp else Config.freeReqOp .outReqOp s.edges s.reqOp)
    trReqAddr := if s.st = .req then s.reqAddr else Config.freeByte .outReqAddr s.edges s.reqAddr
    trReqWdata := if s.st = .req then s.reqWdata else Config.freeHalf .outReqWdata s.edges s.reqWdata }

end Sys2Proof.Machine
end

