-- ==== Sys2Proof/Machine/Codec.lean ====
section
/-! DEFINITION. The Temperature Codec (40_codec.md): `decode` and `encode`, and DECA, DECT, ENC. -/

namespace Sys2Proof.Machine

/-- `sign(raw) = raw[12]` (40_codec.md R78). -/
def signBit (raw : Half) : Bool := raw.getLsbD 12

/-- `nibble(raw) = (raw & 0x0F00) >> 8`, the field's value 0..15 (40_codec.md R78, 90_conflicts.md C1). -/
def nibble (raw : Half) : Nat := ((raw &&& 0x0F00) >>> 8).toNat

/-- `fbyte(raw, style)`, the fractional byte (40_codec.md R78). -/
def fbyte (raw : Half) : Style → Nat
  | .ambient => (raw &&& 0x00FF).toNat
  | .threshold => (raw &&& 0x00FC).toNat

/-- `decode(raw, style)` in sixteenths of a degree: sign and magnitude (40_codec.md R79, R80). -/
def decodeTemp (raw : Half) (style : Style) : Int :=
  let mag : Int := (nibble raw * 256 + fbyte raw style : Nat)
  if signBit raw then -mag else mag

/-- `encode(t)` of an exact temperature (40_codec.md R81), for every rational `t` (log 13). -/
def encodeExact (t : ℚ) : Half :=
  let a : ℚ := if t < 0 then -t else t
  let i : Nat := a.floor.toNat
  let f : ℚ := a - i
  let qf : Nat := (4 * f).floor.toNat
  let r : Nat := ((i <<< 4) ||| (qf <<< 2)) &&& 0x0FFC
  BitVec.ofNat 16 (if t < 0 then r ||| 0x1000 else r)

/-- `encT(T)` of a port temperature: the magnitude cut to quarters and to twelve bits, and the sign (40_codec.md R82). -/
def encodeTemp (t : Half) : Half :=
  let s : Int := toS16 t
  BitVec.ofNat 16 ((s.natAbs &&& 0x0FFC) ||| (if s < 0 then 0x1000 else 0x0000))

/-- DECA (40_codec.md R84). -/
def programDeca (raw : Half) : Program := .respond (toU16 (decodeTemp raw .ambient))

/-- DECT (40_codec.md R85). -/
def programDect (raw : Half) : Program := .respond (toU16 (decodeTemp raw .threshold))

/-- ENC; the style has no effect (40_codec.md R86, R90). -/
def programEnc (_style : Style) (t : Half) : Program := .respond (encodeTemp t)

/-- DECA `raw` (40_codec.md R84). -/
def execDeca (raw : Half) (s : State) : Host.Outcome State Fault Refusal := commandEdge (programDeca raw) s

/-- DECT `raw` (40_codec.md R85). -/
def execDect (raw : Half) (s : State) : Host.Outcome State Fault Refusal := commandEdge (programDect raw) s

/-- ENC A, `temp` (40_codec.md R86). -/
def execEncA (t : Half) (s : State) : Host.Outcome State Fault Refusal := commandEdge (programEnc .ambient t) s

/-- ENC T, `temp` (40_codec.md R86). -/
def execEncT (t : Half) (s : State) : Host.Outcome State Fault Refusal := commandEdge (programEnc .threshold t) s

/-- The operand a host gives for a real temperature: sixteenths cut toward zero, with -1 for a temperature between -1/16 and
0, so that its sign survives (92_eei_decisions.md D9), stated for rationals. D9 speaks of temperatures in range; outside
-2048 to 2047.9375 this wraps modulo 2^16: DESIGN CHOICE, log 13. A host duty, no part of the machine. -/
def hostOperand (t : ℚ) : Half :=
  if -1 / 16 < t ∧ t < 0 then toU16 (-1)
  else if t < 0 then toU16 (-(-16 * t).floor)
  else toU16 (16 * t).floor

end Sys2Proof.Machine
end

