-- ==== Sys2Proof/Machine/Flags.lean ====
section
/-! DEFINITION. The configuration register's flags and fields (10_state.md R30, R31; 41_config.md R91 to R96, R100). The TCC
itself has no condition flags (10_state.md R35). -/

namespace Sys2Proof.Machine

/-- The index of a flag: its bit number in the configuration register (30_encoding.md R64). -/
def flagIndex : Flag → Nat
  | .alertMode => 0
  | .alertPol => 1
  | .alertSel => 2
  | .alertCtrl => 3
  | .alertStat => 4
  | .intClear => 5
  | .winLock => 6
  | .critLock => 7
  | .shutdown => 8

/-- `mask(k) = 1 << k`, 16 bits (41_config.md R91). -/
def flagMask (k : Flag) : Half := (1 : Half) <<< flagIndex k

/-- The configuration value with a flag set (41_config.md R92). -/
def setFlag (k : Flag) (old : Half) : Half := old ||| flagMask k

/-- The configuration value with a flag cleared (41_config.md R93). -/
def clearFlag (k : Flag) (old : Half) : Half := old &&& ~~~flagMask k

/-- The configuration value with the hysteresis field, bits 10:9, set to a code (41_config.md R96). -/
def withHysteresis (code old : Half) : Half := (old &&& 0xF9FF) ||| (code <<< 9)

/-- ISLOCK's test of bits 7 and 6 (41_config.md R100). -/
def lockTest (config : Half) : Half := if config &&& 0x00C0 ≠ 0 then 0x0001 else 0x0000

/-- GETALERT's cause code, bits 15:13 (42_limits_identity.md R107). -/
def alertCause (ambient : Half) : Half := (ambient.extractLsb' 13 3).setWidth 16

/-- BEGIN's identity test, both words compared whole (42_limits_identity.md R108). -/
def identityTest (mfr dev : Half) : Half :=
  if mfr = manufacturerIdExpected ∧ dev = deviceIdExpected then 0x0001 else 0x0000

end Sys2Proof.Machine
end

