-- ==== Sys2Proof/Machine/ConfigControl.lean ====
section
/-! DEFINITION. The Configuration Bitfield Controller (41_config.md): SETF, CLRF, SETHYST, SETRES, GETRES, ISLOCK. -/

namespace Sys2Proof.Machine

/-- SETF: read config, set the flag, write it back whatever it was, answer the new value (41_config.md R92). -/
def programSetf (k : Flag) : Program :=
  .read16 addrConfig fun old =>
    .write16 addrConfig (setFlag k old) (.respond (setFlag k old))

/-- CLRF: read config, clear the flag, write it back whatever it was, answer the new value (41_config.md R93). -/
def programClrf (k : Flag) : Program :=
  .read16 addrConfig fun old =>
    .write16 addrConfig (clearFlag k old) (.respond (clearFlag k old))

/-- SETHYST: validate before any request, then set the hysteresis field by read-modify-write (41_config.md R96). -/
def programSethyst (opnd : Half) : Program :=
  match hystCode opnd with
  | none => .raise .invalidArgument 0x0000
  | some c =>
    .read16 addrConfig fun old =>
      .write16 addrConfig (withHysteresis c old) (.respond (withHysteresis c old))

/-- SETRES: validate before any request, then overwrite the resolution register (41_config.md R98). -/
def programSetres (opnd : Half) : Program :=
  match resCode opnd with
  | none => .raise .invalidArgument 0x0000
  | some c => .write8 addrResolution c (.respond (zext16 c))

/-- GETRES: the whole byte is compared; step and code, or ReservedCode with the byte (41_config.md R99). -/
def programGetres : Program :=
  .read8 addrResolution fun b =>
    match resStep b with
    | none => .raise .reservedCode (zext16 b)
    | some step => .respond (step ++ b)

/-- ISLOCK (41_config.md R100). -/
def programIslock : Program := .read16 addrConfig fun v => .respond (lockTest v)

/-- SETF ALERT_MODE (41_config.md R92). -/
def execSetfAlertMode (s : State) : Host.Outcome State Fault Refusal := commandEdge (programSetf .alertMode) s

/-- SETF ALERT_POL (41_config.md R92). -/
def execSetfAlertPol (s : State) : Host.Outcome State Fault Refusal := commandEdge (programSetf .alertPol) s

/-- SETF ALERT_SEL (41_config.md R92). -/
def execSetfAlertSel (s : State) : Host.Outcome State Fault Refusal := commandEdge (programSetf .alertSel) s

/-- SETF ALERT_CTRL (41_config.md R92). -/
def execSetfAlertCtrl (s : State) : Host.Outcome State Fault Refusal := commandEdge (programSetf .alertCtrl) s

/-- SETF ALERT_STAT (41_config.md R92). -/
def execSetfAlertStat (s : State) : Host.Outcome State Fault Refusal := commandEdge (programSetf .alertStat) s

/-- SETF INT_CLEAR (41_config.md R92). -/
def execSetfIntClear (s : State) : Host.Outcome State Fault Refusal := commandEdge (programSetf .intClear) s

/-- SETF WIN_LOCK (41_config.md R92). -/
def execSetfWinLock (s : State) : Host.Outcome State Fault Refusal := commandEdge (programSetf .winLock) s

/-- SETF CRIT_LOCK (41_config.md R92). -/
def execSetfCritLock (s : State) : Host.Outcome State Fault Refusal := commandEdge (programSetf .critLock) s

/-- SETF SHUTDOWN (41_config.md R92). -/
def execSetfShutdown (s : State) : Host.Outcome State Fault Refusal := commandEdge (programSetf .shutdown) s

/-- CLRF ALERT_MODE (41_config.md R93). -/
def execClrfAlertMode (s : State) : Host.Outcome State Fault Refusal := commandEdge (programClrf .alertMode) s

/-- CLRF ALERT_POL (41_config.md R93). -/
def execClrfAlertPol (s : State) : Host.Outcome State Fault Refusal := commandEdge (programClrf .alertPol) s

/-- CLRF ALERT_SEL (41_config.md R93). -/
def execClrfAlertSel (s : State) : Host.Outcome State Fault Refusal := commandEdge (programClrf .alertSel) s

/-- CLRF ALERT_CTRL (41_config.md R93). -/
def execClrfAlertCtrl (s : State) : Host.Outcome State Fault Refusal := commandEdge (programClrf .alertCtrl) s

/-- CLRF ALERT_STAT (41_config.md R93). -/
def execClrfAlertStat (s : State) : Host.Outcome State Fault Refusal := commandEdge (programClrf .alertStat) s

/-- CLRF INT_CLEAR (41_config.md R93). -/
def execClrfIntClear (s : State) : Host.Outcome State Fault Refusal := commandEdge (programClrf .intClear) s

/-- CLRF WIN_LOCK (41_config.md R93). -/
def execClrfWinLock (s : State) : Host.Outcome State Fault Refusal := commandEdge (programClrf .winLock) s

/-- CLRF CRIT_LOCK (41_config.md R93). -/
def execClrfCritLock (s : State) : Host.Outcome State Fault Refusal := commandEdge (programClrf .critLock) s

/-- CLRF SHUTDOWN (41_config.md R93). -/
def execClrfShutdown (s : State) : Host.Outcome State Fault Refusal := commandEdge (programClrf .shutdown) s

/-- SETHYST `temp` (41_config.md R96). -/
def execSethyst (t : Half) (s : State) : Host.Outcome State Fault Refusal := commandEdge (programSethyst t) s

/-- SETRES `temp` (41_config.md R98). -/
def execSetres (t : Half) (s : State) : Host.Outcome State Fault Refusal := commandEdge (programSetres t) s

/-- GETRES (41_config.md R99). -/
def execGetres (s : State) : Host.Outcome State Fault Refusal := commandEdge programGetres s

/-- ISLOCK (41_config.md R100). -/
def execIslock (s : State) : Host.Outcome State Fault Refusal := commandEdge programIslock s

end Sys2Proof.Machine
end

