-- ==== Sys2Proof/Machine/Limits.lean ====
section
/-! DEFINITION. The limit registers, the ambient and alert reads and the identity check (42_limits_identity.md): SETLIM,
GETLIM, GETAMB, GETALERT, BEGIN. -/

namespace Sys2Proof.Machine

/-- SETLIM: encode and overwrite the limit register, with no read and no range check (42_limits_identity.md R104). -/
def programSetlim (l : LimitReg) (t : Half) : Program :=
  .write16 (limAddr l) (encodeTemp t) (.respond (encodeTemp t))

/-- GETLIM: read the limit register, threshold decode (42_limits_identity.md R105). -/
def programGetlim (l : LimitReg) : Program :=
  .read16 (limAddr l) fun v => .respond (toU16 (decodeTemp v .threshold))

/-- GETAMB: read the ambient register, ambient decode (42_limits_identity.md R106). -/
def programGetamb : Program := .read16 addrAmbient fun v => .respond (toU16 (decodeTemp v .ambient))

/-- GETALERT: read the ambient register, answer bits 15:13 (42_limits_identity.md R107). -/
def programGetalert : Program := .read16 addrAmbient fun v => .respond (alertCause v)

/-- BEGIN: both reads are issued whatever the first gives (42_limits_identity.md R108). -/
def programBegin : Program :=
  .read16 addrManufacturerId fun m =>
    .read16 addrDeviceId fun d => .respond (identityTest m d)

/-- SETLIM UPPER, `temp` (42_limits_identity.md R104). -/
def execSetlimUpper (t : Half) (s : State) : Host.Outcome State Fault Refusal := commandEdge (programSetlim .upper t) s

/-- SETLIM LOWER, `temp` (42_limits_identity.md R104). -/
def execSetlimLower (t : Half) (s : State) : Host.Outcome State Fault Refusal := commandEdge (programSetlim .lower t) s

/-- SETLIM CRIT, `temp` (42_limits_identity.md R104). -/
def execSetlimCrit (t : Half) (s : State) : Host.Outcome State Fault Refusal := commandEdge (programSetlim .crit t) s

/-- GETLIM UPPER (42_limits_identity.md R105). -/
def execGetlimUpper (s : State) : Host.Outcome State Fault Refusal := commandEdge (programGetlim .upper) s

/-- GETLIM LOWER (42_limits_identity.md R105). -/
def execGetlimLower (s : State) : Host.Outcome State Fault Refusal := commandEdge (programGetlim .lower) s

/-- GETLIM CRIT (42_limits_identity.md R105). -/
def execGetlimCrit (s : State) : Host.Outcome State Fault Refusal := commandEdge (programGetlim .crit) s

/-- GETAMB (42_limits_identity.md R106). -/
def execGetamb (s : State) : Host.Outcome State Fault Refusal := commandEdge programGetamb s

/-- GETALERT (42_limits_identity.md R107). -/
def execGetalert (s : State) : Host.Outcome State Fault Refusal := commandEdge programGetalert s

/-- BEGIN (42_limits_identity.md R108). -/
def execBegin (s : State) : Host.Outcome State Fault Refusal := commandEdge programBegin s

end Sys2Proof.Machine
end

