-- ==== Sys2Proof/Machine/Dispatch.lean ====
section
/-! DEFINITION. One arm per command (30_encoding.md R77), each a call of its own meaning. -/

namespace Sys2Proof.Machine

def exec (i : Instr) (s : State) : Host.Outcome State Fault Refusal :=
  match i with
  | .deca raw => Sys2Proof.Machine.execDeca raw s
  | .dect raw => Sys2Proof.Machine.execDect raw s
  | .encA t => Sys2Proof.Machine.execEncA t s
  | .encT t => Sys2Proof.Machine.execEncT t s
  | .setfAlertMode => Sys2Proof.Machine.execSetfAlertMode s
  | .setfAlertPol => Sys2Proof.Machine.execSetfAlertPol s
  | .setfAlertSel => Sys2Proof.Machine.execSetfAlertSel s
  | .setfAlertCtrl => Sys2Proof.Machine.execSetfAlertCtrl s
  | .setfAlertStat => Sys2Proof.Machine.execSetfAlertStat s
  | .setfIntClear => Sys2Proof.Machine.execSetfIntClear s
  | .setfWinLock => Sys2Proof.Machine.execSetfWinLock s
  | .setfCritLock => Sys2Proof.Machine.execSetfCritLock s
  | .setfShutdown => Sys2Proof.Machine.execSetfShutdown s
  | .clrfAlertMode => Sys2Proof.Machine.execClrfAlertMode s
  | .clrfAlertPol => Sys2Proof.Machine.execClrfAlertPol s
  | .clrfAlertSel => Sys2Proof.Machine.execClrfAlertSel s
  | .clrfAlertCtrl => Sys2Proof.Machine.execClrfAlertCtrl s
  | .clrfAlertStat => Sys2Proof.Machine.execClrfAlertStat s
  | .clrfIntClear => Sys2Proof.Machine.execClrfIntClear s
  | .clrfWinLock => Sys2Proof.Machine.execClrfWinLock s
  | .clrfCritLock => Sys2Proof.Machine.execClrfCritLock s
  | .clrfShutdown => Sys2Proof.Machine.execClrfShutdown s
  | .sethyst t => Sys2Proof.Machine.execSethyst t s
  | .setres t => Sys2Proof.Machine.execSetres t s
  | .getres => Sys2Proof.Machine.execGetres s
  | .islock => Sys2Proof.Machine.execIslock s
  | .setlimUpper t => Sys2Proof.Machine.execSetlimUpper t s
  | .setlimLower t => Sys2Proof.Machine.execSetlimLower t s
  | .setlimCrit t => Sys2Proof.Machine.execSetlimCrit t s
  | .getlimUpper => Sys2Proof.Machine.execGetlimUpper s
  | .getlimLower => Sys2Proof.Machine.execGetlimLower s
  | .getlimCrit => Sys2Proof.Machine.execGetlimCrit s
  | .getamb => Sys2Proof.Machine.execGetamb s
  | .getalert => Sys2Proof.Machine.execGetalert s
  | .beginCheck => Sys2Proof.Machine.execBegin s

end Sys2Proof.Machine
end

