-- ==== Sys2Proof/Machine/Sequencer.lean ====
section
/-! DEFINITION. One rising edge of the sequencer (10_state.md R22) with the inputs already sampled. -/

namespace Sys2Proof.Machine

/-- `execute(CMD)` (30_encoding.md R77): a legal word runs its command, every other word ends with IllegalCommand. -/
def executeWord (w : Word) (s : State) : Host.Outcome State Fault Refusal :=
  match decode w with
  | .ok i => exec i s
  | .error _ => commandEdge illegalProgram s

/-- The edge: reset first (10_state.md R36; 70_reset_and_hazards.md R129), then by the sequencer's state. In IDLE an offered
command is accepted and runs to its first effect; in WAIT the latched command goes on; REQ and RESP do not depend on the
command (10_state.md R22, R23, R25). -/
def sequencerEdge (s : State) : Host.Outcome State Fault Refusal :=
  if s.pins.rst then .next (resetEdge s)
  else
    match s.st with
    | .idle => if s.pins.cmdValid then executeWord s.pins.cmdWord (accept s.pins.cmdWord s) else .next s
    | .req => .next (requestEdge s)
    | .wait => executeWord s.cmd s
    | .resp => .next (deliverEdge s)

/-- The inputs of an edge at which the host offers a command word and nothing else happens. -/
def offerCommand (w : Word) : Inputs := { Inputs.quiet with cmdValid := true, cmdWord := w }

end Sys2Proof.Machine
end

