-- ==== Sys2Proof/Machine/Step.lean ====
section
/-! DEFINITION. One step of the machine: one rising edge of `clk` (10_state.md R20, R22). -/

namespace Sys2Proof.Machine

/-- The step samples the input signals and runs the sequencer's edge on them. -/
def step (s : State) : Host.Outcome State Fault Refusal := sequencerEdge (sample s)

/-- The state in which the very next edge accepts the given command word: the sequencer is in IDLE (the only state in which
a command is accepted, 10_state.md R17) and the host offers the word at that edge (log 9). -/
def State.withFetchWord (s : State) (nbits w : Nat) : State :=
  { s with st := .idle, script := offerCommand (BitVec.ofNat 32 (w % 2 ^ nbits)) :: s.script }

end Sys2Proof.Machine
end

