-- ==== Sys2Proof/Machine/Assembler.lean ====
section
/-! DEFINITION. The assembler and the disassembler of 30_encoding.md R71 to R76, on lists of characters. They stand beside
the machine: the machine takes words. What the spec's syntax leaves open is in log 11. -/

namespace Sys2Proof.Machine

/-- What one line of assembler text gives. -/
inductive AsmLine where
  /-- Nothing but white space and a comment. -/
  | blank
  /-- One command word. -/
  | command (w : Word)
  /-- Text the assembler refuses. -/
  | refused
  deriving DecidableEq, Repr

/-- A piece of a line: a run of characters, or a comma. -/
inductive AsmToken where
  | text (cs : List Char)
  | comma
  deriving DecidableEq, Repr

/-- A run of characters as a token, if it is not empty. -/
def tokenOf (acc : List Char) : List AsmToken := if acc = [] then [] else [.text acc.reverse]

/-- Cuts a line into tokens at white space and commas; `acc` holds the run in hand, last character first. -/
def tokenize (acc : List Char) : List Char → List AsmToken
  | [] => tokenOf acc
  | c :: cs =>
    if c = ' ' ∨ c = '\t' ∨ c = '\r' then tokenOf acc ++ tokenize [] cs
    else if c = ',' then tokenOf acc ++ .comma :: tokenize [] cs
    else tokenize (c :: acc) cs

/-- A line without its comment, in capitals. R71 makes only mnemonics and names case-insensitive; that the digits and the
`0x` of a literal are read in either case too is the model's choice, DESIGN CHOICE, log 11. -/
def plainLine (cs : List Char) : List Char := (cs.takeWhile fun c => c ≠ ';').map Char.toUpper

/-- A decimal digit's value. -/
def decDigit (c : Char) : Option Nat :=
  if '0'.toNat ≤ c.toNat ∧ c.toNat ≤ '9'.toNat then some (c.toNat - '0'.toNat) else none

/-- A hexadecimal digit's value, in capitals. -/
def hexDigit (c : Char) : Option Nat :=
  if '0'.toNat ≤ c.toNat ∧ c.toNat ≤ '9'.toNat then some (c.toNat - '0'.toNat)
  else if 'A'.toNat ≤ c.toNat ∧ c.toNat ≤ 'F'.toNat then some (c.toNat - 'A'.toNat + 10)
  else none

/-- The number a list of digits writes in a base, after the digits read so far. -/
def readDigits (base : Nat) (digit : Char → Option Nat) (acc : Nat) : List Char → Option Nat
  | [] => some acc
  | c :: cs => (digit c).bind fun d => readDigits base digit (base * acc + d) cs

/-- A hexadecimal literal `0x` with at least `lo` and at most `hi` digits, on a line in capitals. So `0X` is accepted as `0x`
is (R74 writes only `0x`): DESIGN CHOICE, log 11. -/
def readHex (lo hi : Nat) : List Char → Option Nat
  | '0' :: 'X' :: ds => if lo ≤ ds.length ∧ ds.length ≤ hi then readDigits 16 hexDigit 0 ds else none
  | _ => none

/-- A raw operand: `0xHHHH`, one to four digits, zero-extended (R74). -/
def readRaw (cs : List Char) : Option Half := (readHex 1 4 cs).map (BitVec.ofNat 16)

/-- The digits before and after a decimal point: some before it, and some after it if there is one. -/
def readDecimal (cs : List Char) : Option (Nat × Nat) :=
  let whole := cs.takeWhile fun c => c ≠ '.'
  let frac := (cs.dropWhile fun c => c ≠ '.').drop 1
  if whole = [] ∨ ('.' ∈ cs ∧ frac = []) then none
  else (readDigits 10 decDigit 0 (whole ++ frac)).map fun n => (n, frac.length)

/-- The word of a decimal temperature `± n / 10^k`: `to_u16(16 * temp)`, refused if it is no multiple of 1/16 or out of
range (R73). -/
def tempWord (negative : Bool) (n k : Nat) : Option Half :=
  if 16 * n % 10 ^ k ≠ 0 then none
  else
    let q : Int := (16 * n / 10 ^ k : Nat)
    let x : Int := if negative then -q else q
    if -32768 ≤ x ∧ x ≤ 32767 then some (toU16 x) else none

/-- A temperature operand: a decimal number with an optional sign, or `#0xHHHH` (R73). -/
def readTemp : List Char → Option Half
  | '#' :: cs => (readHex 4 4 cs).map (BitVec.ofNat 16)
  | '-' :: cs => (readDecimal cs).bind fun d => tempWord true d.1 d.2
  | '+' :: cs => (readDecimal cs).bind fun d => tempWord false d.1 d.2
  | cs => (readDecimal cs).bind fun d => tempWord false d.1 d.2

/-- The flag names (30_encoding.md R64). -/
def flagName : Flag → List Char
  | .alertMode => ['A', 'L', 'E', 'R', 'T', '_', 'M', 'O', 'D', 'E']
  | .alertPol => ['A', 'L', 'E', 'R', 'T', '_', 'P', 'O', 'L']
  | .alertSel => ['A', 'L', 'E', 'R', 'T', '_', 'S', 'E', 'L']
  | .alertCtrl => ['A', 'L', 'E', 'R', 'T', '_', 'C', 'T', 'R', 'L']
  | .alertStat => ['A', 'L', 'E', 'R', 'T', '_', 'S', 'T', 'A', 'T']
  | .intClear => ['I', 'N', 'T', '_', 'C', 'L', 'E', 'A', 'R']
  | .winLock => ['W', 'I', 'N', '_', 'L', 'O', 'C', 'K']
  | .critLock => ['C', 'R', 'I', 'T', '_', 'L', 'O', 'C', 'K']
  | .shutdown => ['S', 'H', 'U', 'T', 'D', 'O', 'W', 'N']

/-- Every flag, in the order of its index. -/
def allFlags : List Flag :=
  [.alertMode, .alertPol, .alertSel, .alertCtrl, .alertStat, .intClear, .winLock, .critLock, .shutdown]

/-- The flag of a name. -/
def readFlag (cs : List Char) : Option Flag := allFlags.find? fun k => flagName k = cs

/-- The limit register names (30_encoding.md R64). -/
def limName : LimitReg → List Char
  | .upper => ['U', 'P', 'P', 'E', 'R']
  | .lower => ['L', 'O', 'W', 'E', 'R']
  | .crit => ['C', 'R', 'I', 'T']

/-- The limit register of a name. -/
def readLim (cs : List Char) : Option LimitReg := [LimitReg.upper, .lower, .crit].find? fun l => limName l = cs

/-- SETF of a flag, as a constructor (30_encoding.md R72). -/
def setfOf : Flag → Instr
  | .alertMode => .setfAlertMode
  | .alertPol => .setfAlertPol
  | .alertSel => .setfAlertSel
  | .alertCtrl => .setfAlertCtrl
  | .alertStat => .setfAlertStat
  | .intClear => .setfIntClear
  | .winLock => .setfWinLock
  | .critLock => .setfCritLock
  | .shutdown => .setfShutdown

/-- CLRF of a flag, as a constructor (30_encoding.md R72). -/
def clrfOf : Flag → Instr
  | .alertMode => .clrfAlertMode
  | .alertPol => .clrfAlertPol
  | .alertSel => .clrfAlertSel
  | .alertCtrl => .clrfAlertCtrl
  | .alertStat => .clrfAlertStat
  | .intClear => .clrfIntClear
  | .winLock => .clrfWinLock
  | .critLock => .clrfCritLock
  | .shutdown => .clrfShutdown

/-- SETLIM of a limit register (30_encoding.md R72). -/
def setlimOf (t : Half) : LimitReg → Instr
  | .upper => .setlimUpper t
  | .lower => .setlimLower t
  | .crit => .setlimCrit t

/-- GETLIM of a limit register (30_encoding.md R72). -/
def getlimOf : LimitReg → Instr
  | .upper => .getlimUpper
  | .lower => .getlimLower
  | .crit => .getlimCrit

/-- The mnemonics of the assembler (30_encoding.md R72). -/
def mnDeca : List Char := ['D', 'E', 'C', 'A']
def mnDect : List Char := ['D', 'E', 'C', 'T']
def mnEnc : List Char := ['E', 'N', 'C']
def mnSetf : List Char := ['S', 'E', 'T', 'F']
def mnClrf : List Char := ['C', 'L', 'R', 'F']
def mnSethyst : List Char := ['S', 'E', 'T', 'H', 'Y', 'S', 'T']
def mnSetres : List Char := ['S', 'E', 'T', 'R', 'E', 'S']
def mnGetres : List Char := ['G', 'E', 'T', 'R', 'E', 'S']
def mnIslock : List Char := ['I', 'S', 'L', 'O', 'C', 'K']
def mnSetlim : List Char := ['S', 'E', 'T', 'L', 'I', 'M']
def mnGetlim : List Char := ['G', 'E', 'T', 'L', 'I', 'M']
def mnGetamb : List Char := ['G', 'E', 'T', 'A', 'M', 'B']
def mnGetalert : List Char := ['G', 'E', 'T', 'A', 'L', 'E', 'R', 'T']
def mnBegin : List Char := ['B', 'E', 'G', 'I', 'N']
def mnWord : List Char := ['.', 'W', 'O', 'R', 'D']

/-- A line's command, as an `Option`: `none` is a refusal. -/
def asmOf (w : Option Word) : AsmLine :=
  match w with
  | some w => .command w
  | none => .refused

/-- A mnemonic with no operand (R72). -/
def asm0 (m : List Char) : Option Word :=
  if m = mnGetres then some (encode .getres)
  else if m = mnIslock then some (encode .islock)
  else if m = mnGetamb then some (encode .getamb)
  else if m = mnGetalert then some (encode .getalert)
  else if m = mnBegin then some (encode .beginCheck)
  else none

/-- A mnemonic with one operand, and `.word` (R72, R75). -/
def asm1 (m a : List Char) : Option Word :=
  if m = mnDeca then (readRaw a).map fun r => encode (.deca r)
  else if m = mnDect then (readRaw a).map fun r => encode (.dect r)
  else if m = mnSetf then (readFlag a).map fun k => encode (setfOf k)
  else if m = mnClrf then (readFlag a).map fun k => encode (clrfOf k)
  else if m = mnSethyst then (readTemp a).map fun t => encode (.sethyst t)
  else if m = mnSetres then (readTemp a).map fun t => encode (.setres t)
  else if m = mnGetlim then (readLim a).map fun l => encode (getlimOf l)
  else if m = mnWord then (readHex 8 8 a).map (BitVec.ofNat 32)
  else none

/-- A mnemonic with two operands (R72). -/
def asm2 (m a b : List Char) : Option Word :=
  if m = mnEnc then
    if a = ['A'] then (readTemp b).map fun t => encode (.encA t)
    else if a = ['T'] then (readTemp b).map fun t => encode (.encT t)
    else none
  else if m = mnSetlim then (readLim a).bind fun l => (readTemp b).map fun t => encode (setlimOf t l)
  else none

/-- The assembler: one line, one command (R71, R72). -/
def assemble (line : List Char) : AsmLine :=
  match tokenize [] (plainLine line) with
  | [] => .blank
  | [.text m] => asmOf (asm0 m)
  | [.text m, .text a] => asmOf (asm1 m a)
  | [.text m, .text a, .comma, .text b] => asmOf (asm2 m a b)
  | _ => .refused

/-- The character of a hexadecimal digit, upper case (R76). -/
def hexChar (d : Nat) : Char := Char.ofNat (if d < 10 then '0'.toNat + d else 'A'.toNat + (d - 10))

/-- The low `k` hexadecimal digits of a number, most significant first. -/
def hexChars : Nat → Nat → List Char
  | 0, _ => []
  | k + 1, n => hexChars k (n / 16) ++ [hexChar (n % 16)]

/-- A decimal digit's character. -/
def decChar (d : Nat) : Char := Char.ofNat ('0'.toNat + d % 10)

/-- A whole number of at most four decimal digits, with no leading zeros. -/
def wholeChars (n : Nat) : List Char :=
  (if 1000 ≤ n then [decChar (n / 1000)] else [])
    ++ (if 100 ≤ n then [decChar (n / 100)] else [])
    ++ (if 10 ≤ n then [decChar (n / 10)] else [])
    ++ [decChar n]

/-- The decimal digits of `d / 16` for `d < 16`, with no trailing zeros after the first (R76). -/
def fracChars (d : Nat) : List Char :=
  let f := d * 625
  [decChar (f / 1000)]
    ++ (if f % 1000 = 0 then [] else [decChar (f / 100)])
    ++ (if f % 100 = 0 then [] else [decChar (f / 10)])
    ++ (if f % 10 = 0 then [] else [decChar f])

/-- A temperature operand as printed: the exact decimal value (R76). -/
def printTemp (t : Half) : List Char :=
  let s : Int := toS16 t
  (if s < 0 then ['-'] else []) ++ wholeChars (s.natAbs / 16) ++ '.' :: fracChars (s.natAbs % 16)

/-- A raw operand as printed (R76). -/
def printRaw (r : Half) : List Char := '0' :: 'x' :: hexChars 4 r.toNat

/-- A legal command as printed (R72, R76). -/
def printInstr : Instr → List Char
  | .deca r => mnDeca ++ ' ' :: printRaw r
  | .dect r => mnDect ++ ' ' :: printRaw r
  | .encA t => mnEnc ++ [' ', 'A', ',', ' '] ++ printTemp t
  | .encT t => mnEnc ++ [' ', 'T', ',', ' '] ++ printTemp t
  | .setfAlertMode => mnSetf ++ ' ' :: flagName .alertMode
  | .setfAlertPol => mnSetf ++ ' ' :: flagName .alertPol
  | .setfAlertSel => mnSetf ++ ' ' :: flagName .alertSel
  | .setfAlertCtrl => mnSetf ++ ' ' :: flagName .alertCtrl
  | .setfAlertStat => mnSetf ++ ' ' :: flagName .alertStat
  | .setfIntClear => mnSetf ++ ' ' :: flagName .intClear
  | .setfWinLock => mnSetf ++ ' ' :: flagName .winLock
  | .setfCritLock => mnSetf ++ ' ' :: flagName .critLock
  | .setfShutdown => mnSetf ++ ' ' :: flagName .shutdown
  | .clrfAlertMode => mnClrf ++ ' ' :: flagName .alertMode
  | .clrfAlertPol => mnClrf ++ ' ' :: flagName .alertPol
  | .clrfAlertSel => mnClrf ++ ' ' :: flagName .alertSel
  | .clrfAlertCtrl => mnClrf ++ ' ' :: flagName .alertCtrl
  | .clrfAlertStat => mnClrf ++ ' ' :: flagName .alertStat
  | .clrfIntClear => mnClrf ++ ' ' :: flagName .intClear
  | .clrfWinLock => mnClrf ++ ' ' :: flagName .winLock
  | .clrfCritLock => mnClrf ++ ' ' :: flagName .critLock
  | .clrfShutdown => mnClrf ++ ' ' :: flagName .shutdown
  | .sethyst t => mnSethyst ++ ' ' :: printTemp t
  | .setres t => mnSetres ++ ' ' :: printTemp t
  | .getres => mnGetres
  | .islock => mnIslock
  | .setlimUpper t => mnSetlim ++ ' ' :: limName .upper ++ [',', ' '] ++ printTemp t
  | .setlimLower t => mnSetlim ++ ' ' :: limName .lower ++ [',', ' '] ++ printTemp t
  | .setlimCrit t => mnSetlim ++ ' ' :: limName .crit ++ [',', ' '] ++ printTemp t
  | .getlimUpper => mnGetlim ++ ' ' :: limName .upper
  | .getlimLower => mnGetlim ++ ' ' :: limName .lower
  | .getlimCrit => mnGetlim ++ ' ' :: limName .crit
  | .getamb => mnGetamb
  | .getalert => mnGetalert
  | .beginCheck => mnBegin

/-- The disassembler: a command, or `.word` with eight digits for an illegal word (R75, R76). -/
def disassemble (w : Word) : List Char :=
  match decode w with
  | .ok i => printInstr i
  | .error _ => ['.', 'w', 'o', 'r', 'd', ' ', '0', 'x'] ++ hexChars 8 w.toNat

end Sys2Proof.Machine
end

