-- ==== Sys2Proof/Machine/RefDevice.lean ====
section
/-! DEFINITION. The reference device of 92_eei_decisions.md D26: a store that holds the last value written to each register
and gives it back, with no other writer. It is no part of the TCC and the machine's step never uses it; it stands for the
test programs of 95_test_vectors.md, which are stated over it (log 12). -/

namespace Sys2Proof.Machine

/-- The device registers (10_state.md R27), as logical values. -/
structure RefDevice where
  config         : Half
  upper          : Half
  lower          : Half
  critical       : Half
  ambient        : Half
  manufacturerId : Half
  deviceId       : Half
  resolution     : Byte
  deriving DecidableEq, Repr

/-- The logical value of the word a 16-bit write gives the transport: `W` undone (20_memory.md R45, D26). -/
def logicalOfWire (nativeLE : Bool) (w : Half) : Half := wireWord nativeLE w

/-- What the device answers to a request and holds after it. It never fails. A request the register map of 10_state.md R27
does not list reads as 0 and stores nothing; the TCC issues none. The datum of an answer to a write, and bits 15:8 of an answer
to RD8, are 0 here, where D26 is silent and 93_implementation_defined.md U17 allows any value; nothing reads them. DESIGN
CHOICE, log 12. -/
def refAnswer (nativeLE : Bool) (r : Request) (d : RefDevice) : Answer × RefDevice :=
  let good (v : Half) : Answer := { err := false, rdata := v }
  let v := logicalOfWire nativeLE r.wdata
  match r.op, r.addr.toNat with
  | .rd16, 0x01 => (good d.config, d)
  | .rd16, 0x02 => (good d.upper, d)
  | .rd16, 0x03 => (good d.lower, d)
  | .rd16, 0x04 => (good d.critical, d)
  | .rd16, 0x05 => (good d.ambient, d)
  | .rd16, 0x06 => (good d.manufacturerId, d)
  | .rd16, 0x07 => (good d.deviceId, d)
  | .rd8, 0x08 => (good (zext16 d.resolution), d)
  | .wr16, 0x01 => (good 0, { d with config := v })
  | .wr16, 0x02 => (good 0, { d with upper := v })
  | .wr16, 0x03 => (good 0, { d with lower := v })
  | .wr16, 0x04 => (good 0, { d with critical := v })
  | .wr8, 0x08 => (good 0, { d with resolution := lowByte r.wdata })
  | _, _ => (good 0, d)

/-- One command run against the reference device: the requests it issues, the response it ends with, the device after it. -/
def runOnRef (nativeLE : Bool) (d : RefDevice) : Program → List Request × (Status × Half) × RefDevice
  | .respond v => ([], (.ok, v), d)
  | .raise e info => ([], (e, info), d)
  | .read8 addr rest =>
    let q : Request := { op := .rd8, addr := addr, wdata := 0 }
    let a := refAnswer nativeLE q d
    let t := runOnRef nativeLE a.2 (rest (lowByte a.1.rdata))
    (q :: t.1, t.2)
  | .read16 addr rest =>
    let q : Request := { op := .rd16, addr := addr, wdata := 0 }
    let a := refAnswer nativeLE q d
    let t := runOnRef nativeLE a.2 (rest a.1.rdata)
    (q :: t.1, t.2)
  | .write8 addr b rest =>
    let q : Request := { op := .wr8, addr := addr, wdata := zext16 b }
    let t := runOnRef nativeLE (refAnswer nativeLE q d).2 rest
    (q :: t.1, t.2)
  | .write16 addr v rest =>
    let q : Request := { op := .wr16, addr := addr, wdata := wireWord nativeLE v }
    let t := runOnRef nativeLE (refAnswer nativeLE q d).2 rest
    (q :: t.1, t.2)

end Sys2Proof.Machine
end

