-- ==== Sys2Proof/Safety.lean ====
section
/-! DEFINITION. What counts as a sound run, in the terms the statements use: the pseudocode of a command word, the two
consistency conditions of the sequencer's registers (10_state.md R21, R22; 60_exceptions.md R117), what a run shows at the
ports (10_state.md R17 to R19), and the distance of a command from its end. -/

namespace Sys2Proof.Machine

/-- The pseudocode of a command: the one its meaning runs. -/
def programOf (i : Instr) : Program :=
  match i with
  | .deca raw => programDeca raw
  | .dect raw => programDect raw
  | .encA t => programEnc .ambient t
  | .encT t => programEnc .threshold t
  | .setfAlertMode => programSetf .alertMode
  | .setfAlertPol => programSetf .alertPol
  | .setfAlertSel => programSetf .alertSel
  | .setfAlertCtrl => programSetf .alertCtrl
  | .setfAlertStat => programSetf .alertStat
  | .setfIntClear => programSetf .intClear
  | .setfWinLock => programSetf .winLock
  | .setfCritLock => programSetf .critLock
  | .setfShutdown => programSetf .shutdown
  | .clrfAlertMode => programClrf .alertMode
  | .clrfAlertPol => programClrf .alertPol
  | .clrfAlertSel => programClrf .alertSel
  | .clrfAlertCtrl => programClrf .alertCtrl
  | .clrfAlertStat => programClrf .alertStat
  | .clrfIntClear => programClrf .intClear
  | .clrfWinLock => programClrf .winLock
  | .clrfCritLock => programClrf .critLock
  | .clrfShutdown => programClrf .shutdown
  | .sethyst t => programSethyst t
  | .setres t => programSetres t
  | .getres => programGetres
  | .islock => programIslock
  | .setlimUpper t => programSetlim .upper t
  | .setlimLower t => programSetlim .lower t
  | .setlimCrit t => programSetlim .crit t
  | .getlimUpper => programGetlim .upper
  | .getlimLower => programGetlim .lower
  | .getlimCrit => programGetlim .crit
  | .getamb => programGetamb
  | .getalert => programGetalert
  | .beginCheck => programBegin

/-- The pseudocode of a command word (30_encoding.md R77). -/
def programOfWord (w : Word) : Program :=
  match decode w with
  | .ok i => programOf i
  | .error _ => illegalProgram

/-- The request the latched command has in flight, by `CMD`, `PH` and `OLD` (10_state.md R22). -/
def pendingRequest (s : State) : Option Request :=
  ((programOfWord s.cmd).inFlight s.ph s.old).bind fun q => q.request s.cfg.nativeLE

/-- In REQ and WAIT the `REQ_*` registers hold the latched command's request in flight. -/
def RequestConsistent (s : State) : Prop :=
  (s.st = .req ∨ s.st = .wait) → pendingRequest s = some { op := s.reqOp, addr := s.reqAddr, wdata := s.reqWdata }

/-- Whether a command can end with a status: the table of 60_exceptions.md R117, less IllegalCommand, which no legal word
ends with. -/
def canEndWith (i : Instr) (e : Status) : Bool :=
  match i, e with
  | _, .ok => true
  | _, .illegalCommand => false
  | .sethyst _, .invalidArgument => true
  | .setres _, .invalidArgument => true
  | _, .invalidArgument => false
  | .getres, .reservedCode => true
  | _, .reservedCode => false
  | .deca _, .transportError => false
  | .dect _, .transportError => false
  | .encA _, .transportError => false
  | .encT _, .transportError => false
  | _, .transportError => true

/-- Whether a command word can end with a status (60_exceptions.md R117): an illegal word with IllegalCommand only. -/
def wordCanEndWith (w : Word) (e : Status) : Bool :=
  match decode w with
  | .ok i => canEndWith i e
  | .error _ => decide (e = .illegalCommand)

/-- In RESP the response has one of the five codes of 60_exceptions.md R111, one that R117 allows the latched command, and
datum 0 unless it is OK or ReservedCode (30_encoding.md R70). -/
def ResponseConsistent (s : State) : Prop :=
  s.st = .resp → ∃ e : Status, s.rspStatus = statusCode e ∧ wordCanEndWith s.cmd e = true ∧
    (e ≠ .ok → e ≠ .reservedCode → s.rspData = 0)

/-- The invariant of every run. -/
def Consistent (s : State) : Prop := RequestConsistent s ∧ ResponseConsistent s

/-- The (kind, address) pairs of the device register map (10_state.md R27, columns "read it" and "write it"). -/
def registerMap : List (ReqOp × Byte) :=
  [(.rd16, 0x01), (.wr16, 0x01), (.rd16, 0x02), (.wr16, 0x02), (.rd16, 0x03), (.wr16, 0x03), (.rd16, 0x04), (.wr16, 0x04),
   (.rd16, 0x05), (.rd16, 0x06), (.rd16, 0x07), (.rd8, 0x08), (.wr8, 0x08)]

/-- The answer to the command's first transaction arrives, with no error. -/
def AtFirstAnswer (s : State) : Prop :=
  s.st = .wait ∧ s.ph = .first ∧ s.pins.trRspValid = true ∧ s.pins.trRspErr = false

/-- The answer to the command's second transaction arrives, with no error. -/
def AtSecondAnswer (s : State) : Prop :=
  s.st = .wait ∧ s.ph = .second ∧ s.pins.trRspValid = true ∧ s.pins.trRspErr = false

/-- The answer to either transaction arrives, with an error. -/
def AtErrorAnswer (s : State) : Prop := s.st = .wait ∧ s.pins.trRspValid = true ∧ s.pins.trRspErr = true

/-- An error answer ends the command with TransportError and datum 0, and no request (60_exceptions.md R115). -/
def EndsOnErrorAnswer (i : Instr) : Prop :=
  ∀ s : State, AtErrorAnswer s → exec i s = .next { s with st := .resp, rspStatus := 2, rspData := 0 }

/-- The word, once accepted, ends with IllegalCommand and datum 0, and no request (60_exceptions.md R112). -/
def EndsIllegal (w : Word) : Prop :=
  ∀ s : State, s.st = .idle → executeWord w s = .next { s with st := .resp, rspStatus := 3, rspData := 0 }

/-- The most transactions a command issues (70_reset_and_hazards.md R141). -/
def maxTransactions (i : Instr) : Nat :=
  match i with
  | .deca _ | .dect _ | .encA _ | .encT _ => 0
  | .sethyst t => if (hystCode t).isSome then 2 else 0
  | .setres t => if (resCode t).isSome then 1 else 0
  | .getres | .islock | .getamb | .getalert | .getlimUpper | .getlimLower | .getlimCrit => 1
  | .setlimUpper _ | .setlimLower _ | .setlimCrit _ => 1
  | .setfAlertMode | .setfAlertPol | .setfAlertSel | .setfAlertCtrl | .setfAlertStat | .setfIntClear | .setfWinLock
  | .setfCritLock | .setfShutdown => 2
  | .clrfAlertMode | .clrfAlertPol | .clrfAlertSel | .clrfAlertCtrl | .clrfAlertStat | .clrfIntClear | .clrfWinLock
  | .clrfCritLock | .clrfShutdown => 2
  | .beginCheck => 2

/-- What one rising edge shows at the ports. -/
inductive Event where
  /-- `rst` was 1. -/
  | reset
  /-- A command was accepted (10_state.md R17). -/
  | accepted (w : Word)
  /-- A request was issued (10_state.md R19). -/
  | issued (r : Request)
  /-- An answer was taken in WAIT (10_state.md R19, R25). -/
  | answered (a : Answer)
  /-- A response was delivered (10_state.md R18). -/
  | delivered (status : BitVec 3) (data : Half)
  deriving DecidableEq, Repr

/-- The event of the edge whose inputs are sampled in `s` (10_state.md R17 to R19), at most one. -/
def edgeEvents (s : State) : List Event :=
  if s.pins.rst then [.reset]
  else
    match s.st with
    | .idle => if s.pins.cmdValid then [.accepted s.pins.cmdWord] else []
    | .req => if s.pins.trReqReady then [.issued { op := s.reqOp, addr := s.reqAddr, wdata := s.reqWdata }] else []
    | .wait => if s.pins.trRspValid then [.answered { err := s.pins.trRspErr, rdata := s.pins.trRspRdata }] else []
    | .resp => if s.pins.rspReady then [.delivered s.rspStatus s.rspData] else []

/-- The events of the next `k` edges. -/
def history : Nat → State → List Event
  | 0, _ => []
  | k + 1, s =>
    edgeEvents (sample s) ++
      match step s with
      | .next t => history k t
      | .fault _ => []
      | .refused _ => []

/-- Whether an event begins a command or resets the block. -/
def Event.isBoundary : Event → Bool
  | .reset => true
  | .accepted _ => true
  | .issued _ => false
  | .answered _ => false
  | .delivered _ _ => false

/-- The requests issued in a history, in order. -/
def requestsIn (es : List Event) : List Request :=
  es.filterMap fun e => match e with | .issued r => some r | _ => none

/-- The answers taken in a history, in order. -/
def answersIn (es : List Event) : List Answer :=
  es.filterMap fun e => match e with | .answered a => some a | _ => none

/-- The input the sequencer waits for in its state (10_state.md R22). -/
def awaitedInput (s : State) : Bool :=
  match s.st with
  | .idle => s.pins.cmdValid
  | .req => s.pins.trReqReady
  | .wait => s.pins.trRspValid
  | .resp => s.pins.rspReady

/-- How many edges with the awaited input a command has at most before its response is delivered. -/
def edgesLeft (s : State) : Nat :=
  match s.st, s.ph with
  | .idle, _ => 0
  | .resp, _ => 1
  | .wait, .second => 2
  | .req, .second => 3
  | .wait, .first => 4
  | .req, .first => 5

/-- The inputs of an edge at which everyone does what the sequencer waits for, with no error. -/
def eagerInputs (x : Inputs) : Bool :=
  !x.rst && x.cmdValid && x.rspReady && x.trReqReady && x.trRspValid && !x.trRspErr

end Sys2Proof.Machine
end

