-- ==== Sys2Proof/Certificates/Slice0/Obligations.lean ====
section
/-! DEFINITION. The statements for the provers, each after the rule of spec/ it formalises. `exec i s` is one rising edge of
the sequencer for the command `i` (10_state.md R22), so a command with transactions has one clause for the edge that accepts
it (state IDLE, the word just latched) and one for each answer that goes on with it. -/

open Sys2Proof Sys2Proof.Machine

/-! ## Encoding -/

/-- One word of every family, written out from 30_encoding.md R72, decodes to its command, and the all-zero word and a
reserved flag index do not (R67, R68). -/
def Obligations.WrittenOutWordsDecode : Prop :=
  decode 0x01000190 = .ok (.deca 0x0190) ∧ decode 0x02000193 = .ok (.dect 0x0193) ∧
  decode 0x030101E0 = .ok (.encT 0x01E0) ∧ decode 0x10080000 = .ok .setfShutdown ∧
  decode 0x11060000 = .ok .clrfWinLock ∧ decode 0x12000018 = .ok (.sethyst 0x0018) ∧
  decode 0x13000001 = .ok (.setres 0x0001) ∧ decode 0x2001FF30 = .ok (.setlimLower 0xFF30) ∧
  decode 0x21020000 = .ok .getlimCrit ∧ decode 0x30000000 = .ok .beginCheck ∧
  decode 0x00000000 = .error .reservedOpcode ∧ decode 0x10090000 = .error .selectorOutOfRange ∧
  decode 0x22000001 = .error .operandNotZero

/-- Every command's word decodes to it, with every operand (30_encoding.md R63, R72). -/
def Obligations.DecodeOfEncode : Prop := ∀ i : Instr, decode (encode i) = .ok i

/-- A word that decodes to a command is that command's word: each command has one word. -/
def Obligations.EncodeOfDecode : Prop := ∀ (w : Word) (i : Instr), decode w = .ok i → encode i = w

/-- A word decodes to a command exactly when `legal(CMD)` of 30_encoding.md R66 holds, written out on its bits. -/
def Obligations.DecodesExactlyTheLegalWords : Prop :=
  ∀ w : Word, (∃ i, decode w = .ok i) ↔
    (w.extractLsb' 24 8 ∈ ([0x01, 0x02, 0x03, 0x10, 0x11, 0x12, 0x13, 0x14, 0x15, 0x20, 0x21, 0x22, 0x23, 0x30] : List Byte)) ∧
    (if w.extractLsb' 24 8 = (0x03 : Byte) then (w.extractLsb' 16 8).toNat ≤ 0x01
     else if w.extractLsb' 24 8 ∈ ([0x10, 0x11] : List Byte) then (w.extractLsb' 16 8).toNat ≤ 0x08
     else if w.extractLsb' 24 8 ∈ ([0x20, 0x21] : List Byte) then (w.extractLsb' 16 8).toNat ≤ 0x02
     else w.extractLsb' 16 8 = (0x00 : Byte)) ∧
    (w.extractLsb' 24 8 ∈ ([0x10, 0x11, 0x14, 0x15, 0x21, 0x22, 0x23, 0x30] : List Byte) →
      w.extractLsb' 0 16 = (0x0000 : Half))

/-- Every word matches one row of opcode_table.json if it decodes, and none if it does not (30_encoding.md R77). -/
def Obligations.EveryWordIsOneRowOrIllegal : Prop :=
  ∀ w : Word, (opcodeRows.filter fun r => w &&& r.2 == r.1).length = if (decode w).toOption.isSome then 1 else 0

/-- Every word with a reserved opcode is illegal, and so is the all-zero word (30_encoding.md R68). -/
def Obligations.ReservedOpcodesAreIllegal : Prop :=
  EndsIllegal 0x00000000 ∧
  ∀ w : Word,
    ((w.extractLsb' 24 8).toNat = 0x00 ∨
      (0x04 ≤ (w.extractLsb' 24 8).toNat ∧ (w.extractLsb' 24 8).toNat ≤ 0x0F) ∨
      (0x16 ≤ (w.extractLsb' 24 8).toNat ∧ (w.extractLsb' 24 8).toNat ≤ 0x1F) ∨
      (0x24 ≤ (w.extractLsb' 24 8).toNat ∧ (w.extractLsb' 24 8).toNat ≤ 0x2F) ∨
      (0x31 ≤ (w.extractLsb' 24 8).toNat ∧ (w.extractLsb' 24 8).toNat ≤ 0xFF)) →
    EndsIllegal w

/-- An accepted word that is not legal ends with IllegalCommand and datum 0, and offers no request (30_encoding.md R67,
60_exceptions.md R112). -/
def Obligations.IllegalWordEndsTheCommand : Prop :=
  ∀ s : State, (sample s).pins.rst = false → s.st = .idle → (sample s).pins.cmdValid = true →
    (fieldsOf (sample s).pins.cmdWord).legal = false →
    step s = .next { sample s with
      cmd := (sample s).pins.cmdWord, ph := .first, st := .resp, rspStatus := 3, rspData := 0x0000 }

/-! ## The codec -/

/-- `decode` is sign and magnitude: the magnitude is the low twelve bits, less the low two in the threshold style, and bit 12
is the sign (40_codec.md R79). Negative zero is 0 (R80). -/
def Obligations.DecodeIsSignAndMagnitude : Prop :=
  ∀ raw : Half,
    decodeTemp raw .ambient =
      (if raw.getLsbD 12 then -((raw &&& 0x0FFF).toNat : Int) else ((raw &&& 0x0FFF).toNat : Int)) ∧
    decodeTemp raw .threshold =
      (if raw.getLsbD 12 then -((raw &&& 0x0FFC).toNat : Int) else ((raw &&& 0x0FFC).toNat : Int)) ∧
    -4095 ≤ decodeTemp raw .ambient ∧ decodeTemp raw .ambient ≤ 4095 ∧
    (∀ style, raw &&& 0x0FFF = 0 → decodeTemp raw style = 0 ∧ toU16 (decodeTemp raw style) = 0x0000)

/-- The four laws of `decode` (40_codec.md R88). -/
def Obligations.DecodeLaws : Prop :=
  (∀ r r' : Half, (r &&& 0x1FFF = r' &&& 0x1FFF → decodeTemp r .ambient = decodeTemp r' .ambient) ∧
    (r &&& 0x1FFC = r' &&& 0x1FFC → decodeTemp r .threshold = decodeTemp r' .threshold)) ∧
  ∀ r : Half,
    (decodeTemp r .ambient).natAbs ≤ 4095 ∧ (decodeTemp r .threshold).natAbs ≤ 4092 ∧
    decodeTemp r .threshold = decodeTemp (r &&& 0xFFFC) .ambient ∧
    (decodeTemp r .ambient = 0 ↔ r &&& 0x0FFF = 0)

/-- The port-level encode is the exact encode of the port value, for every word (40_codec.md R82). -/
def Obligations.PortEncodeIsExactEncode : Prop := ∀ t : Half, encodeTemp t = encodeExact (celsius t)

/-- The four laws of `encT` (40_codec.md R89). -/
def Obligations.EncodeLaws : Prop :=
  ∀ t : Half,
    encodeTemp t &&& 0xE003 = 0 ∧
    ((encodeTemp t).getLsbD 12 = true ↔ toS16 t < 0) ∧
    (decodeTemp (encodeTemp t) .threshold).natAbs ≤ (toS16 t).natAbs ∧
    ((toS16 t).natAbs ≤ 4095 →
      (toS16 t).natAbs - (decodeTemp (encodeTemp t) .threshold).natAbs ≤ 3 ∧
      decodeTemp (encodeTemp t) .threshold = (toS16 t).sign * (((toS16 t).natAbs / 4 * 4 : Nat) : Int))

/-- The round trip, with its one exception, negative zero (40_codec.md R87). -/
def Obligations.CodecRoundTrip : Prop :=
  ∀ r : Half,
    encodeTemp (toU16 (decodeTemp r .ambient)) =
      (r &&& 0x0FFC) ||| (if r.getLsbD 12 = true ∧ r &&& 0x0FFF ≠ 0 then 0x1000 else 0x0000) ∧
    encodeTemp (toU16 (decodeTemp r .threshold)) =
      (r &&& 0x0FFC) ||| (if r.getLsbD 12 = true ∧ r &&& 0x0FFC ≠ 0 then 0x1000 else 0x0000) ∧
    (r &&& 0xE003 = 0 → r ≠ 0x1000 → encodeTemp (toU16 (decodeTemp r .ambient)) = r)

/-- Overflow is silent: bits 11:4 of the encoding of any exact temperature are its whole degrees modulo 256
(40_codec.md R83, first three sentences). -/
def Obligations.EncodeOverflowsModulo256 : Prop :=
  ∀ t : ℚ, ((encodeExact t).extractLsb' 4 8).toNat = (if t < 0 then -t else t).floor.toNat % 256

/-- With the host mapping of 92_eei_decisions.md D9, a rational temperature in range is encoded as the exact encode says. D9
speaks of real temperatures; that the model states it for rationals is its choice, log 13. -/
def Obligations.HostMappingKeepsTheEncoding : Prop :=
  ∀ t : ℚ, -2048 ≤ t → t ≤ 32767 / 16 → encodeTemp (hostOperand t) = encodeExact t

/-- DECA: the word, the answer, the illegal selector (40_codec.md R84). -/
def Obligations.DecaAnswersTheAmbientDecode : Prop :=
  ∀ raw : Half,
    decode ((0x0100 : Half) ++ raw) = .ok (.deca raw) ∧
    (∀ s : State, s.st = .idle → exec (.deca raw) s =
      .next { s with st := .resp, rspStatus := 0,
                     rspData := BitVec.ofInt 16 (if raw.getLsbD 12 then -((raw &&& 0x0FFF).toNat : Int)
                                                 else ((raw &&& 0x0FFF).toNat : Int)) }) ∧
    ∀ sel : Byte, sel ≠ 0 → EndsIllegal (((0x01 : Byte) ++ sel) ++ raw)

/-- DECT: the word, the answer, the illegal selector (40_codec.md R85). -/
def Obligations.DectAnswersTheThresholdDecode : Prop :=
  ∀ raw : Half,
    decode ((0x0200 : Half) ++ raw) = .ok (.dect raw) ∧
    (∀ s : State, s.st = .idle → exec (.dect raw) s =
      .next { s with st := .resp, rspStatus := 0,
                     rspData := BitVec.ofInt 16 (if raw.getLsbD 12 then -((raw &&& 0x0FFC).toNat : Int)
                                                 else ((raw &&& 0x0FFC).toNat : Int)) }) ∧
    ∀ sel : Byte, sel ≠ 0 → EndsIllegal (((0x02 : Byte) ++ sel) ++ raw)

/-- ENC A and ENC T: the words, the one answer both give, the illegal selectors (40_codec.md R86, R90). -/
def Obligations.EncAnswersTheEncodedTemperature : Prop :=
  ∀ t : Half,
    decode ((0x0300 : Half) ++ t) = .ok (.encA t) ∧ decode ((0x0301 : Half) ++ t) = .ok (.encT t) ∧
    (∀ i ∈ [Instr.encA t, Instr.encT t], ∀ s : State, s.st = .idle → exec i s =
      .next { s with st := .resp, rspStatus := 0,
                     rspData := BitVec.ofNat 16 ((t.toInt.natAbs &&& 0x0FFC) ||| (if t.toInt < 0 then 0x1000 else 0)) }) ∧
    ∀ sel : Byte, 1 < sel.toNat → EndsIllegal (((0x03 : Byte) ++ sel) ++ t)

/-! ## The configuration controller -/

/-- SETF of each of the nine flags, with its word and mask: read config, write it back with the bit set and everything else
as read, answer the new value; its errors (41_config.md R91, R92). -/
def Obligations.SetfReadsSetsAndWritesBack : Prop :=
  (∀ p ∈ [(Instr.setfAlertMode, (0x10000000 : Word), (0x0001 : Half)), (.setfAlertPol, 0x10010000, 0x0002),
      (.setfAlertSel, 0x10020000, 0x0004), (.setfAlertCtrl, 0x10030000, 0x0008), (.setfAlertStat, 0x10040000, 0x0010),
      (.setfIntClear, 0x10050000, 0x0020), (.setfWinLock, 0x10060000, 0x0040), (.setfCritLock, 0x10070000, 0x0080),
      (.setfShutdown, 0x10080000, 0x0100)],
    decode p.2.1 = .ok p.1 ∧ EndsOnErrorAnswer p.1 ∧
    ∀ s : State,
      (s.st = .idle → exec p.1 s =
        .next { s with st := .req, ph := .first, reqOp := .rd16, reqAddr := 0x01, reqWdata := 0x0000 }) ∧
      (AtFirstAnswer s → exec p.1 s =
        .next { s with old := s.pins.trRspRdata, st := .req, ph := .second, reqOp := .wr16, reqAddr := 0x01,
                       reqWdata := wireWord s.cfg.nativeLE (s.pins.trRspRdata ||| p.2.2) }) ∧
      (AtSecondAnswer s → exec p.1 s = .next { s with st := .resp, rspStatus := 0, rspData := s.old ||| p.2.2 })) ∧
  ∀ (sel : Byte) (opnd : Half), 8 < sel.toNat ∨ opnd ≠ 0 → EndsIllegal (((0x10 : Byte) ++ sel) ++ opnd)

/-- CLRF of each of the nine flags, likewise with the bit cleared (41_config.md R91, R93). -/
def Obligations.ClrfReadsClearsAndWritesBack : Prop :=
  (∀ p ∈ [(Instr.clrfAlertMode, (0x11000000 : Word), (0x0001 : Half)), (.clrfAlertPol, 0x11010000, 0x0002),
      (.clrfAlertSel, 0x11020000, 0x0004), (.clrfAlertCtrl, 0x11030000, 0x0008), (.clrfAlertStat, 0x11040000, 0x0010),
      (.clrfIntClear, 0x11050000, 0x0020), (.clrfWinLock, 0x11060000, 0x0040), (.clrfCritLock, 0x11070000, 0x0080),
      (.clrfShutdown, 0x11080000, 0x0100)],
    decode p.2.1 = .ok p.1 ∧ EndsOnErrorAnswer p.1 ∧
    ∀ s : State,
      (s.st = .idle → exec p.1 s =
        .next { s with st := .req, ph := .first, reqOp := .rd16, reqAddr := 0x01, reqWdata := 0x0000 }) ∧
      (AtFirstAnswer s → exec p.1 s =
        .next { s with old := s.pins.trRspRdata, st := .req, ph := .second, reqOp := .wr16, reqAddr := 0x01,
                       reqWdata := wireWord s.cfg.nativeLE (s.pins.trRspRdata &&& ~~~p.2.2) }) ∧
      (AtSecondAnswer s → exec p.1 s = .next { s with st := .resp, rspStatus := 0, rspData := s.old &&& ~~~p.2.2 })) ∧
  ∀ (sel : Byte) (opnd : Half), 8 < sel.toNat ∨ opnd ≠ 0 → EndsIllegal (((0x11 : Byte) ++ sel) ++ opnd)

/-- The flag laws of 41_config.md R94, on register values, and its last point: the document's branch on the written value
gives the one write path's word. -/
def Obligations.FlagLaws : Prop :=
  ∀ (o : Half) (k : Flag),
    clearFlag k (setFlag k o) = clearFlag k o ∧
    (clearFlag k (setFlag k o) = o ↔ o.getLsbD (flagIndex k) = false) ∧
    setFlag k (setFlag k o) = setFlag k o ∧ clearFlag k (clearFlag k o) = clearFlag k o ∧
    wireWord true o = (if o.toNat < 0x00FF then o <<< 8 else bswap16 o) ∧
    ∀ j : Flag, j ≠ k →
      (setFlag k o).getLsbD (flagIndex j) = o.getLsbD (flagIndex j) ∧
      (clearFlag k o).getLsbD (flagIndex j) = o.getLsbD (flagIndex j) ∧
      (clearFlag k (setFlag k o)).getLsbD (flagIndex j) = o.getLsbD (flagIndex j)

/-- SETHYST with a legal operand: read-modify-write of bits 10:9; with any other, InvalidArgument before any request; its
errors (41_config.md R95, R96). -/
def Obligations.SethystSetsTheFieldOrRefusesTheOperand : Prop :=
  (∀ p ∈ [((0x0000 : Half), (0x0000 : Half)), (0x0018, 0x0200), (0x0030, 0x0400), (0x0060, 0x0600)],
    decode ((0x1200 : Half) ++ p.1) = .ok (.sethyst p.1) ∧ EndsOnErrorAnswer (.sethyst p.1) ∧
    ∀ s : State,
      (s.st = .idle → exec (.sethyst p.1) s =
        .next { s with st := .req, ph := .first, reqOp := .rd16, reqAddr := 0x01, reqWdata := 0x0000 }) ∧
      (AtFirstAnswer s → exec (.sethyst p.1) s =
        .next { s with old := s.pins.trRspRdata, st := .req, ph := .second, reqOp := .wr16, reqAddr := 0x01,
                       reqWdata := wireWord s.cfg.nativeLE ((s.pins.trRspRdata &&& 0xF9FF) ||| p.2) }) ∧
      (AtSecondAnswer s → exec (.sethyst p.1) s =
        .next { s with st := .resp, rspStatus := 0, rspData := (s.old &&& 0xF9FF) ||| p.2 })) ∧
  (∀ t : Half, t ∉ ([0x0000, 0x0018, 0x0030, 0x0060] : List Half) →
    decode ((0x1200 : Half) ++ t) = .ok (.sethyst t) ∧
    ∀ s : State, s.st = .idle →
      exec (.sethyst t) s = .next { s with st := .resp, rspStatus := 1, rspData := 0x0000 }) ∧
  ∀ (sel : Byte) (opnd : Half), sel ≠ 0 → EndsIllegal (((0x12 : Byte) ++ sel) ++ opnd)

/-- SETRES with a legal operand: one byte write and no read; with any other, InvalidArgument and no write; its errors
(41_config.md R97, R98). -/
def Obligations.SetresWritesOneByteOrRefusesTheOperand : Prop :=
  (∀ p ∈ [((0x0008 : Half), (0x0000 : Half)), (0x0004, 0x0001), (0x0002, 0x0002), (0x0001, 0x0003)],
    decode ((0x1300 : Half) ++ p.1) = .ok (.setres p.1) ∧ EndsOnErrorAnswer (.setres p.1) ∧
    ∀ s : State,
      (s.st = .idle → exec (.setres p.1) s =
        .next { s with st := .req, ph := .first, reqOp := .wr8, reqAddr := 0x08, reqWdata := p.2 }) ∧
      (AtFirstAnswer s → exec (.setres p.1) s = .next { s with st := .resp, rspStatus := 0, rspData := p.2 })) ∧
  (∀ t : Half, t ∉ ([0x0008, 0x0004, 0x0002, 0x0001] : List Half) →
    decode ((0x1300 : Half) ++ t) = .ok (.setres t) ∧
    ∀ s : State, s.st = .idle →
      exec (.setres t) s = .next { s with st := .resp, rspStatus := 1, rspData := 0x0000 }) ∧
  ∀ (sel : Byte) (opnd : Half), sel ≠ 0 → EndsIllegal (((0x13 : Byte) ++ sel) ++ opnd)

/-- GETRES: a byte read; step and code for the four codes, ReservedCode with the byte for every other, the high byte of the
answer ignored; its errors (41_config.md R99, 20_memory.md R47). -/
def Obligations.GetresAnswersStepAndCodeOrReservedCode : Prop :=
  decode 0x14000000 = .ok .getres ∧ EndsOnErrorAnswer .getres ∧
  (∀ s : State, s.st = .idle → exec .getres s =
    .next { s with st := .req, ph := .first, reqOp := .rd8, reqAddr := 0x08, reqWdata := 0x0000 }) ∧
  (∀ p ∈ [((0x00 : Byte), (0x0800 : Half)), (0x01, 0x0401), (0x02, 0x0202), (0x03, 0x0103)],
    ∀ s : State, AtFirstAnswer s → s.pins.trRspRdata.extractLsb' 0 8 = p.1 → exec .getres s =
      .next { s with old := p.1.setWidth 16, st := .resp, rspStatus := 0, rspData := p.2 }) ∧
  (∀ s : State, AtFirstAnswer s → 3 < (s.pins.trRspRdata.extractLsb' 0 8).toNat → exec .getres s =
    .next { s with old := (s.pins.trRspRdata.extractLsb' 0 8).setWidth 16, st := .resp, rspStatus := 4,
                   rspData := (s.pins.trRspRdata.extractLsb' 0 8).setWidth 16 }) ∧
  ∀ (sel : Byte) (opnd : Half), sel ≠ 0 ∨ opnd ≠ 0 → EndsIllegal (((0x14 : Byte) ++ sel) ++ opnd)

/-- ISLOCK: config read, 1 exactly when bit 7 or bit 6 is set; its errors (41_config.md R100). -/
def Obligations.IslockTestsBothLockBits : Prop :=
  decode 0x15000000 = .ok .islock ∧ EndsOnErrorAnswer .islock ∧
  (∀ s : State,
    (s.st = .idle → exec .islock s =
      .next { s with st := .req, ph := .first, reqOp := .rd16, reqAddr := 0x01, reqWdata := 0x0000 }) ∧
    (AtFirstAnswer s → exec .islock s =
      .next { s with old := s.pins.trRspRdata, st := .resp, rspStatus := 0,
                     rspData := if s.pins.trRspRdata.getLsbD 7 || s.pins.trRspRdata.getLsbD 6 then 0x0001 else 0x0000 })) ∧
  ∀ (sel : Byte) (opnd : Half), sel ≠ 0 ∨ opnd ≠ 0 → EndsIllegal (((0x15 : Byte) ++ sel) ++ opnd)

/-! ## Limits, ambient, alert, identity -/

/-- SETLIM of each limit register, with its words and address: one 16-bit write of the encoded temperature, for every
operand, no read, the written value answered; its errors (42_limits_identity.md R103, R104). -/
def Obligations.SetlimWritesTheEncodedTemperature : Prop :=
  (∀ p ∈ [(Instr.setlimUpper, (0x2000 : Half), (0x02 : Byte)), (Instr.setlimLower, 0x2001, 0x03),
      (Instr.setlimCrit, 0x2002, 0x04)],
    ∀ t : Half, decode (p.2.1 ++ t) = .ok (p.1 t) ∧ EndsOnErrorAnswer (p.1 t) ∧
    ∀ s : State,
      (s.st = .idle → exec (p.1 t) s =
        .next { s with st := .req, ph := .first, reqOp := .wr16, reqAddr := p.2.2,
                       reqWdata := wireWord s.cfg.nativeLE (BitVec.ofNat 16
                         ((t.toInt.natAbs &&& 0x0FFC) ||| (if t.toInt < 0 then 0x1000 else 0))) }) ∧
      (AtFirstAnswer s → exec (p.1 t) s =
        .next { s with st := .resp, rspStatus := 0,
                       rspData := BitVec.ofNat 16 ((t.toInt.natAbs &&& 0x0FFC) ||| (if t.toInt < 0 then 0x1000 else 0)) })) ∧
  ∀ (sel : Byte) (opnd : Half), 2 < sel.toNat → EndsIllegal (((0x20 : Byte) ++ sel) ++ opnd)

/-- GETLIM of each limit register: a 16-bit read and the threshold decode of what it gives; its errors
(42_limits_identity.md R103, R105). -/
def Obligations.GetlimAnswersTheThresholdDecode : Prop :=
  (∀ p ∈ [(Instr.getlimUpper, (0x21000000 : Word), (0x02 : Byte)), (.getlimLower, 0x21010000, 0x03),
      (.getlimCrit, 0x21020000, 0x04)],
    decode p.2.1 = .ok p.1 ∧ EndsOnErrorAnswer p.1 ∧
    ∀ s : State,
      (s.st = .idle → exec p.1 s =
        .next { s with st := .req, ph := .first, reqOp := .rd16, reqAddr := p.2.2, reqWdata := 0x0000 }) ∧
      (AtFirstAnswer s → exec p.1 s =
        .next { s with old := s.pins.trRspRdata, st := .resp, rspStatus := 0,
                       rspData := BitVec.ofInt 16
                         (if s.pins.trRspRdata.getLsbD 12 then -((s.pins.trRspRdata &&& 0x0FFC).toNat : Int)
                          else ((s.pins.trRspRdata &&& 0x0FFC).toNat : Int)) })) ∧
  ∀ (sel : Byte) (opnd : Half), 2 < sel.toNat ∨ opnd ≠ 0 → EndsIllegal (((0x21 : Byte) ++ sel) ++ opnd)

/-- GETAMB: a 16-bit read of register 0x05 and its ambient decode; its errors (42_limits_identity.md R106). -/
def Obligations.GetambAnswersTheAmbientDecode : Prop :=
  decode 0x22000000 = .ok .getamb ∧ EndsOnErrorAnswer .getamb ∧
  (∀ s : State,
    (s.st = .idle → exec .getamb s =
      .next { s with st := .req, ph := .first, reqOp := .rd16, reqAddr := 0x05, reqWdata := 0x0000 }) ∧
    (AtFirstAnswer s → exec .getamb s =
      .next { s with old := s.pins.trRspRdata, st := .resp, rspStatus := 0,
                     rspData := BitVec.ofInt 16
                       (if s.pins.trRspRdata.getLsbD 12 then -((s.pins.trRspRdata &&& 0x0FFF).toNat : Int)
                        else ((s.pins.trRspRdata &&& 0x0FFF).toNat : Int)) })) ∧
  ∀ (sel : Byte) (opnd : Half), sel ≠ 0 ∨ opnd ≠ 0 → EndsIllegal (((0x22 : Byte) ++ sel) ++ opnd)

/-- GETALERT: a 16-bit read of register 0x05 and its bits 15:13; its errors (42_limits_identity.md R107). -/
def Obligations.GetalertAnswersTheCauseBits : Prop :=
  decode 0x23000000 = .ok .getalert ∧ EndsOnErrorAnswer .getalert ∧
  (∀ s : State,
    (s.st = .idle → exec .getalert s =
      .next { s with st := .req, ph := .first, reqOp := .rd16, reqAddr := 0x05, reqWdata := 0x0000 }) ∧
    (AtFirstAnswer s → exec .getalert s =
      .next { s with old := s.pins.trRspRdata, st := .resp, rspStatus := 0, rspData := s.pins.trRspRdata >>> 13 })) ∧
  ∀ (sel : Byte) (opnd : Half), sel ≠ 0 ∨ opnd ≠ 0 → EndsIllegal (((0x23 : Byte) ++ sel) ++ opnd)

/-- BEGIN: both identity reads in order, the second whatever the first gave, and 1 exactly when both whole words match; its
errors (42_limits_identity.md R108). -/
def Obligations.BeginComparesBothIdentityWords : Prop :=
  decode 0x30000000 = .ok .beginCheck ∧ EndsOnErrorAnswer .beginCheck ∧
  (∀ s : State,
    (s.st = .idle → exec .beginCheck s =
      .next { s with st := .req, ph := .first, reqOp := .rd16, reqAddr := 0x06, reqWdata := 0x0000 }) ∧
    (AtFirstAnswer s → exec .beginCheck s =
      .next { s with old := s.pins.trRspRdata, st := .req, ph := .second, reqOp := .rd16, reqAddr := 0x07,
                     reqWdata := 0x0000 }) ∧
    (AtSecondAnswer s → exec .beginCheck s =
      .next { s with st := .resp, rspStatus := 0,
                     rspData := if s.old = 0x0054 ∧ s.pins.trRspRdata = 0x0400 then 0x0001 else 0x0000 })) ∧
  ∀ (sel : Byte) (opnd : Half), sel ≠ 0 ∨ opnd ≠ 0 → EndsIllegal (((0x30 : Byte) ++ sel) ++ opnd)

/-! ## Byte order -/

/-- In both settings of `NATIVE_LE` the device receives the high byte first; `W` is its own inverse; and the document's
shift for small values gives the same word (20_memory.md R45, R48). -/
def Obligations.WiresCarryTheHighByteFirst : Prop :=
  ∀ (le : Bool) (v : Half),
    bytesOnWire le (wireWord le v) = [v.extractLsb' 8 8, v.extractLsb' 0 8] ∧
    wireWord le (wireWord le v) = v ∧
    (v.toNat ≤ 0x00FF → v <<< 8 = bswap16 v) ∧
    wireWord true v = (if v.toNat < 0x00FF then v <<< 8 else bswap16 v) ∧ wireWord false v = v

/-! ## The sequencer -/

/-- An edge that accepts a legal word runs its command at that edge, and an edge in WAIT runs the latched command
(10_state.md R22, 30_encoding.md R77). -/
def Obligations.StepRunsTheDecodedCommand : Prop :=
  ∀ (s : State) (i : Instr), (sample s).pins.rst = false →
    (s.st = .idle → (sample s).pins.cmdValid = true → decode (sample s).pins.cmdWord = .ok i →
      step s = exec i { sample s with cmd := (sample s).pins.cmdWord, ph := .first }) ∧
    (s.st = .wait → decode s.cmd = .ok i → step s = exec i (sample s))

/-- Every command, at any edge, leaves alone: the parameter, `CMD`, the input samples and their counter; `OLD` but at the
answer to a first read; `PH` and the request registers but where it offers a request; the response registers but where it
ends (10_state.md R21, R22). The TCC has no memory to leave alone (20_memory.md, first sentence). -/
def Obligations.CommandFrame : Prop :=
  ∀ (i : Instr) (s t : State), exec i s = .next t →
    t.cfg = s.cfg ∧ t.cmd = s.cmd ∧ t.pins = s.pins ∧ t.script = s.script ∧ t.edges = s.edges ∧
    (¬ (AtFirstAnswer s ∧ (programOf i).isRead = true) → t.old = s.old) ∧
    (t.st ≠ .req ∨ s.st = .req →
      t.ph = s.ph ∧ t.reqOp = s.reqOp ∧ t.reqAddr = s.reqAddr ∧ t.reqWdata = s.reqWdata) ∧
    (t.st ≠ .resp ∨ s.st = .resp → t.rspStatus = s.rspStatus ∧ t.rspData = s.rspData)

/-- A failed transaction ends any command that has one in flight, at once, with TransportError, datum 0, and no later
request (60_exceptions.md R115). -/
def Obligations.FailedTransactionEndsTheCommand : Prop :=
  ∀ s : State, (sample s).pins.rst = false → s.st = .wait → (sample s).pins.trRspValid = true →
    (sample s).pins.trRspErr = true →
    step s = .next { sample s with st := .resp, rspStatus := 2, rspData := 0x0000 }

/-- While a request is offered it is held unchanged until the transport takes it; then the machine waits for its answer
(10_state.md R22, R24). -/
def Obligations.RequestIsHeldUntilIssued : Prop :=
  ∀ s : State, (sample s).pins.rst = false → s.st = .req →
    (outputs s).trReqValid = true ∧ (outputs s).trReqOp = reqOpCode s.reqOp ∧ (outputs s).trReqAddr = s.reqAddr ∧
    (outputs s).trReqWdata = s.reqWdata ∧
    ((sample s).pins.trReqReady = false → step s = .next (sample s)) ∧
    ((sample s).pins.trReqReady = true → step s = .next { sample s with st := .wait })

/-- While a response is offered it is held unchanged until the host takes it; then the machine is back in IDLE, after an
error as after a success (10_state.md R26; 60_exceptions.md R120). -/
def Obligations.ResponseIsHeldUntilDelivered : Prop :=
  ∀ s : State, (sample s).pins.rst = false → s.st = .resp →
    (outputs s).rspValid = true ∧ (outputs s).rspStatus = s.rspStatus ∧ (outputs s).rspData = s.rspData ∧
    ((sample s).pins.rspReady = false → step s = .next (sample s)) ∧
    ((sample s).pins.rspReady = true → step s = .next { sample s with st := .idle })

/-- A machine that waits for an answer that does not come keeps waiting, and one that is offered no command stays in IDLE
(70_reset_and_hazards.md R137, 10_state.md R22). -/
def Obligations.NothingAwaitedNothingHappens : Prop :=
  ∀ s : State, (sample s).pins.rst = false →
    (s.st = .wait → (sample s).pins.trRspValid = false → step s = .next (sample s)) ∧
    (s.st = .idle → (sample s).pins.cmdValid = false → step s = .next (sample s))

/-- What the transport's response signals carry outside state WAIT changes no state (10_state.md R25). -/
def Obligations.StrayAnswersAreIgnored : Prop :=
  ∀ (s : State) (p : Inputs) (rest : List Inputs) (v e : Bool) (d : Half), s.st ≠ .wait →
    ∃ t : State, step { s with script := p :: rest } = .next t ∧
      step { s with script := { p with trRspValid := v, trRspErr := e, trRspRdata := d } :: rest } =
        .next { t with pins := { p with trRspValid := v, trRspErr := e, trRspRdata := d } }

/-- While the machine is not in IDLE it shows no `cmd_ready`, and what the command port carries changes no state
(10_state.md R23). -/
def Obligations.BusyMachineAcceptsNoCommand : Prop :=
  ∀ (s : State) (p : Inputs) (rest : List Inputs) (v : Bool) (w : Word), s.st ≠ .idle →
    (outputs s).cmdReady = false ∧
    ∀ t : State, step { s with script := p :: rest } = .next t →
      (p.rst = false → t.cmd = s.cmd) ∧
      step { s with script := { p with cmdValid := v, cmdWord := w } :: rest } =
        .next { t with pins := { p with cmdValid := v, cmdWord := w } }

/-- A reset edge, whatever the machine was doing, leaves it in IDLE with a command accepted, no response and no request
shown; the parameter stays (10_state.md R36, R39). -/
def Obligations.ResetAbandonsTheCommand : Prop :=
  ∀ s : State, (sample s).pins.rst = true →
    ∃ t : State, step s = .next t ∧ t.st = .idle ∧ (outputs t).cmdReady = true ∧ (outputs t).rspValid = false ∧
      (outputs t).trReqValid = false ∧ t.cfg = s.cfg ∧ edgeEvents (sample s) = [.reset]

/-- The machine right after reset is in IDLE and ready for a command (10_state.md R36). The last clause is the model's choice
and no rule of the spec: `State.reset` takes `NATIVE_LE` at the default of 00_scope.md R6, which leaves it OPEN (log 3). -/
def Obligations.AfterResetTheMachineIsReady : Prop :=
  State.reset.st = .idle ∧ (outputs State.reset).cmdReady = true ∧ (outputs State.reset).rspValid = false ∧
    (outputs State.reset).trReqValid = false ∧ State.reset.cfg.nativeLE = true

/-- `NATIVE_LE` never changes (10_state.md R39). -/
def Obligations.ParameterNeverChanges : Prop := ∀ s t : State, step s = .next t → t.cfg = s.cfg

/-! ## Invariants -/

/-- The state after reset is consistent. -/
def Obligations.ResetIsConsistent : Prop := Consistent State.reset

/-- Every step keeps the sequencer's registers consistent: the request shown is the latched command's, and the response
shown is one that command can end with (10_state.md R22, 60_exceptions.md R117, 30_encoding.md R70). -/
def Obligations.StepKeepsConsistent : Prop := ∀ s t : State, Consistent s → step s = .next t → Consistent t

/-- From a consistent state every step goes on: no command faults and none is refused (60_exceptions.md R119, R120). -/
def Obligations.ConsistentStepGoesOn : Prop := ∀ s : State, Consistent s → ∃ t : State, step s = .next t

/-- A consistent machine asks only for the registers of 10_state.md R27, each at its own width and only as that table
allows, and never writes the ambient and identity registers (10_state.md R27, 20_memory.md R41, R50). -/
def Obligations.RequestsStayInTheRegisterMap : Prop :=
  ∀ s : State, Consistent s → s.st = .req → (s.reqOp, s.reqAddr) ∈ registerMap

/-- A consistent machine in RESP shows one of the five status codes, never 5, 6 or 7, and datum 0 with every error but
ReservedCode (60_exceptions.md R111, 30_encoding.md R70). -/
def Obligations.ResponsesShowAKnownStatus : Prop :=
  ∀ s : State, Consistent s → s.st = .resp →
    (outputs s).rspStatus.toNat ≤ 4 ∧
    ((outputs s).rspStatus = 1 ∨ (outputs s).rspStatus = 2 ∨ (outputs s).rspStatus = 3 → (outputs s).rspData = 0x0000)

/-- A command issues at most the transactions 70_reset_and_hazards.md R141 lists, whatever the transport answers, and exactly
those if no answer is an error and all come; an illegal word issues none. -/
def Obligations.TransactionCounts : Prop :=
  ∀ (i : Instr) (le : Bool) (answers : List Answer),
    (illegalProgram.transact le answers).requests = [] ∧
    ((programOf i).transact le answers).requests.length ≤ maxTransactions i ∧
    ((∀ a ∈ answers, a.err = false) → maxTransactions i ≤ answers.length →
      ((programOf i).transact le answers).requests.length = maxTransactions i ∧
      ((programOf i).transact le answers).response ≠ none)

/-- A command ends only with a status that 60_exceptions.md R117 allows it, and can end with each one it allows. -/
def Obligations.CommandsEndOnlyAsTheTableSays : Prop :=
  ∀ (i : Instr) (le : Bool),
    (∀ (answers : List Answer) (e : Status) (d : Half),
      ((programOf i).transact le answers).response = some (e, d) → canEndWith i e = true) ∧
    (canEndWith i .transportError = true → (maxTransactions i ≠ 0) →
      ∃ answers d, ((programOf i).transact le answers).response = some (.transportError, d)) ∧
    (canEndWith i .reservedCode = true → ∃ answers d, ((programOf i).transact le answers).response = some (.reservedCode, d))

/-! ## Runs -/

/-- Whatever the outside world does, without a reset: from IDLE, the requests a run issues for an accepted command are in
order those of the command's transaction-level meaning under the answers the transport gave, and a response it delivers is
that meaning's, after all of them. So the result depends only on the word, the answers and `NATIVE_LE`
(00_scope.md R12, R14; 10_state.md R15; 70_reset_and_hazards.md R142). -/
def Obligations.RunsFollowTheTransactionMeaning : Prop :=
  ∀ (k : Nat) (s : State) (w : Word) (es : List Event), s.st = .idle → history k s = .accepted w :: es →
    (∀ e ∈ es, e.isBoundary = false) →
    requestsIn es <+: ((programOfWord w).transact s.cfg.nativeLE (answersIn es)).requests ∧
    ∀ (code : BitVec 3) (d : Half), Event.delivered code d ∈ es →
      requestsIn es = ((programOfWord w).transact s.cfg.nativeLE (answersIn es)).requests ∧
      ∃ e : Status, code = statusCode e ∧
        ((programOfWord w).transact s.cfg.nativeLE (answersIn es)).response = some (e, d)

/-- Two idle machines with the same parameter and the same inputs show the same events for ever, whatever their other
registers hold: no unspecified register is read before it is written, and nothing passes from one command to the next
(10_state.md R21, R38). -/
def Obligations.IdleRegistersAreNeverRead : Prop :=
  ∀ (k : Nat) (s s' : State), s.st = .idle → s'.st = .idle → s.cfg = s'.cfg → s.script = s'.script → s.edges = s'.edges →
    history k s = history k s'

/-- At most one request is outstanding at any time of a run without a reset: issues and answers alternate
(10_state.md R40). -/
def Obligations.AtMostOneRequestOutstanding : Prop :=
  ∀ (k : Nat) (s : State), s.st = .idle → .reset ∉ history k s →
    (answersIn (history k s)).length ≤ (requestsIn (history k s)).length ∧
    (requestsIn (history k s)).length ≤ (answersIn (history k s)).length + 1

/-- Each edge that brings what a busy machine waits for takes it closer to the end of its command; an edge that does not
leaves its registers as they were (10_state.md R22, R40), with one edge per step, log 2. -/
def Obligations.AwaitedInputBringsTheEndCloser : Prop :=
  ∀ s : State, Consistent s → s.st ≠ .idle → (sample s).pins.rst = false →
    (awaitedInput (sample s) = true → ∃ t : State, step s = .next t ∧ edgesLeft t < edgesLeft s) ∧
    (awaitedInput (sample s) = false → step s = .next (sample s))

/-- With everyone eager and no error, a command from IDLE is over after two edges and two more per transaction, having issued
exactly its transactions (10_state.md R22, 70_reset_and_hazards.md R141). The count of edges is R22 read as one edge per
step, the model's reading, log 2: 70_reset_and_hazards.md R140 fixes no upper bound. -/
def Obligations.EagerCommandsEnd : Prop :=
  ∀ (i : Instr) (s : State) (xs rest : List Inputs), s.st = .idle → s.script = xs ++ rest →
    xs.length = 2 * maxTransactions i + 2 → (∀ x ∈ xs, eagerInputs x = true) → (∀ x ∈ xs.head?, x.cmdWord = encode i) →
    ∃ t : State, Host.Core.run core (2 * maxTransactions i + 2) s = .next t ∧ t.st = .idle ∧ t.script = rest ∧
      (requestsIn (history (2 * maxTransactions i + 2) s)).length = maxTransactions i

/-! ## Beside the machine -/

/-- The assembler reads back what the disassembler prints, for every word, illegal ones included (30_encoding.md R72 to
R76). -/
def Obligations.AssemblerReadsTheDisassembly : Prop := ∀ w : Word, assemble (disassemble w) = .command w

/-- On the reference device of 92_eei_decisions.md D26, SETF and CLRF change one bit of config and no other register, and
answer the value they store, in both byte orders (41_config.md R92 to R94). -/
def Obligations.FlagCommandsOnTheReferenceDevice : Prop :=
  ∀ (le : Bool) (d : RefDevice) (k : Flag),
    (runOnRef le d (programSetf k)).2 = ((.ok, setFlag k d.config), { d with config := setFlag k d.config }) ∧
    (runOnRef le d (programClrf k)).2 = ((.ok, clearFlag k d.config), { d with config := clearFlag k d.config })

/-- On the reference device, a limit set to a temperature within ±255.9375 °C reads back as that temperature cut toward zero
to a quarter of a degree, and the other registers are as before (42_limits_identity.md R104, R105, R110; 40_codec.md R89). -/
def Obligations.SetlimThenGetlimOnTheReferenceDevice : Prop :=
  ∀ (le : Bool) (d : RefDevice) (l : LimitReg) (t : Half), t.toInt.natAbs ≤ 4095 →
    let d' := (runOnRef le d (programSetlim l t)).2.2
    (runOnRef le d' (programGetlim l)).2 =
      ((.ok, BitVec.ofInt 16 (t.toInt.sign * ((t.toInt.natAbs / 4 * 4 : Nat) : Int))), d') ∧
    { d' with upper := d.upper, lower := d.lower, critical := d.critical } = d ∧
    (l ≠ .upper → d'.upper = d.upper) ∧ (l ≠ .lower → d'.lower = d.lower) ∧ (l ≠ .crit → d'.critical = d.critical)
end

