-- ==== Sys2Proof/Laws/Codec.lean ====
section
/-! SUPPORT. The spec lemmas of the byte order and of the flag masks. -/

namespace Sys2Proof.Machine

@[simp] theorem wireWord_big (v : Half) : wireWord false v = v := rfl

@[simp] theorem wireWord_little (v : Half) : wireWord true v = bswap16 v := rfl

/-- Bit by bit, the swap moves each byte to the other's place (00_scope.md R9). -/
theorem getLsbD_bswap16 (v : Half) (i : Nat) :
    (bswap16 v).getLsbD i = if i < 8 then v.getLsbD (i + 8) else v.getLsbD (i - 8) && decide (i < 16) := by
  show (lowByte v ++ highByte v : BitVec (8 + 8)).getLsbD i = _
  rw [BitVec.getLsbD_append]
  simp only [lowByte, highByte, BitVec.getLsbD_extractLsb', Nat.zero_add]
  by_cases hi : i < 8
  · simp [hi, Nat.add_comm]
  · simp only [hi, if_false]
    by_cases h16 : i < 16
    · simp [h16, show i - 8 < 8 by omega]
    · simp [h16, show ¬ i - 8 < 8 by omega]

/-- Swapping twice gives the value back. -/
@[simp] theorem bswap16_bswap16 (v : Half) : bswap16 (bswap16 v) = v := by
  apply BitVec.eq_of_getLsbD_eq
  intro i hi
  simp only [getLsbD_bswap16]
  by_cases h8 : i < 8
  · simp [h8, show ¬ i + 8 < 8 by omega, show i + 8 < 16 by omega]
  · simp [h8, hi, show i - 8 < 8 by omega, show i - 8 + 8 = i by omega]

/-- The mask of a flag is the one bit of its index (41_config.md R91). -/
theorem getLsbD_flagMask (k : Flag) (i : Nat) : (flagMask k).getLsbD i = decide (i = flagIndex k) := by
  by_cases hi : i < 16
  · cases k <;> simp only [flagMask, flagIndex] <;> revert hi <;> revert i <;> decide
  · have hk : flagIndex k < 16 := by cases k <;> decide
    rw [BitVec.getLsbD_of_ge _ _ (by omega)]
    simp; omega

end Sys2Proof.Machine
end

