-- ==== Sys2Proof/Laws/Decode.lean ====
section
/-! SUPPORT. The fields of a word and the word of three fields are inverse; the small lemmas of the decoder's helpers. -/

namespace Sys2Proof

theorem fieldsOf_wordOf (c : Cmd) : fieldsOf (wordOf c) = c := by
  cases c with
  | mk opc sel opnd =>
    simp only [fieldsOf, wordOf, Cmd.mk.injEq]
    refine ⟨?_, ?_, ?_⟩ <;>
    · ext i hi
      simp only [BitVec.getElem_extractLsb', BitVec.getLsbD_append]
      grind

theorem wordOf_fieldsOf (w : Word) : wordOf (fieldsOf w) = w := by
  simp only [fieldsOf, wordOf]
  ext i hi
  simp only [BitVec.getElem_append, BitVec.getElem_extractLsb']
  grind

theorem fieldsOf_inj {w w' : Word} (h : fieldsOf w = fieldsOf w') : w = w' := by
  rw [← wordOf_fieldsOf w, ← wordOf_fieldsOf w', h]

theorem decode_wordOf (c : Cmd) : decode (wordOf c) = decodeFields c := by
  rw [decode, fieldsOf_wordOf]

theorem decodeSelZero_ok {c : Cmd} {i j : Instr} (h : decodeSelZero c i = .ok j) : c.sel = 0 ∧ i = j := by
  unfold decodeSelZero at h; split at h <;> simp_all

theorem decodeOpndZero_ok {c : Cmd} {i j : Instr} (h : decodeOpndZero c i = .ok j) : c.opnd = 0 ∧ i = j := by
  unfold decodeOpndZero at h; split at h <;> simp_all

theorem decodeBare_ok {c : Cmd} {i j : Instr} (h : decodeBare c i = .ok j) : c.sel = 0 ∧ c.opnd = 0 ∧ i = j := by
  unfold decodeBare at h
  split at h
  · exact ⟨‹_›, decodeOpndZero_ok h⟩
  · cases h

end Sys2Proof
end

