-- ==== Sys2Proof/Laws/State.lean ====
section
/-! SUPPORT. What each update of the state does to each field, one lemma per field, so that no later proof unfolds a record
update. -/

namespace Sys2Proof.Machine

@[simp] theorem accept_st (w : Word) (s : State) : (accept w s).st = s.st := rfl
@[simp] theorem accept_cmd (w : Word) (s : State) : (accept w s).cmd = w := rfl
@[simp] theorem accept_ph (w : Word) (s : State) : (accept w s).ph = .first := rfl
@[simp] theorem accept_old (w : Word) (s : State) : (accept w s).old = s.old := rfl
@[simp] theorem accept_reqOp (w : Word) (s : State) : (accept w s).reqOp = s.reqOp := rfl
@[simp] theorem accept_reqAddr (w : Word) (s : State) : (accept w s).reqAddr = s.reqAddr := rfl
@[simp] theorem accept_reqWdata (w : Word) (s : State) : (accept w s).reqWdata = s.reqWdata := rfl
@[simp] theorem accept_rspStatus (w : Word) (s : State) : (accept w s).rspStatus = s.rspStatus := rfl
@[simp] theorem accept_rspData (w : Word) (s : State) : (accept w s).rspData = s.rspData := rfl
@[simp] theorem accept_cfg (w : Word) (s : State) : (accept w s).cfg = s.cfg := rfl
@[simp] theorem accept_pins (w : Word) (s : State) : (accept w s).pins = s.pins := rfl
@[simp] theorem accept_script (w : Word) (s : State) : (accept w s).script = s.script := rfl
@[simp] theorem accept_edges (w : Word) (s : State) : (accept w s).edges = s.edges := rfl

@[simp] theorem respondWith_st (d : Half) (s : State) : (respondWith d s).st = .resp := rfl
@[simp] theorem respondWith_cmd (d : Half) (s : State) : (respondWith d s).cmd = s.cmd := rfl
@[simp] theorem respondWith_ph (d : Half) (s : State) : (respondWith d s).ph = s.ph := rfl
@[simp] theorem respondWith_old (d : Half) (s : State) : (respondWith d s).old = s.old := rfl
@[simp] theorem respondWith_reqOp (d : Half) (s : State) : (respondWith d s).reqOp = s.reqOp := rfl
@[simp] theorem respondWith_reqAddr (d : Half) (s : State) : (respondWith d s).reqAddr = s.reqAddr := rfl
@[simp] theorem respondWith_reqWdata (d : Half) (s : State) : (respondWith d s).reqWdata = s.reqWdata := rfl
@[simp] theorem respondWith_rspStatus (d : Half) (s : State) : (respondWith d s).rspStatus = statusCode .ok := rfl
@[simp] theorem respondWith_rspData (d : Half) (s : State) : (respondWith d s).rspData = d := rfl
@[simp] theorem respondWith_cfg (d : Half) (s : State) : (respondWith d s).cfg = s.cfg := rfl
@[simp] theorem respondWith_pins (d : Half) (s : State) : (respondWith d s).pins = s.pins := rfl
@[simp] theorem respondWith_script (d : Half) (s : State) : (respondWith d s).script = s.script := rfl
@[simp] theorem respondWith_edges (d : Half) (s : State) : (respondWith d s).edges = s.edges := rfl

@[simp] theorem raiseError_st (e : Status) (info : Half) (s : State) : (raiseError e info s).st = .resp := rfl
@[simp] theorem raiseError_cmd (e : Status) (info : Half) (s : State) : (raiseError e info s).cmd = s.cmd := rfl
@[simp] theorem raiseError_ph (e : Status) (info : Half) (s : State) : (raiseError e info s).ph = s.ph := rfl
@[simp] theorem raiseError_old (e : Status) (info : Half) (s : State) : (raiseError e info s).old = s.old := rfl
@[simp] theorem raiseError_reqOp (e : Status) (info : Half) (s : State) : (raiseError e info s).reqOp = s.reqOp := rfl
@[simp] theorem raiseError_reqAddr (e : Status) (info : Half) (s : State) : (raiseError e info s).reqAddr = s.reqAddr := rfl
@[simp] theorem raiseError_reqWdata (e : Status) (info : Half) (s : State) : (raiseError e info s).reqWdata = s.reqWdata := rfl
@[simp] theorem raiseError_rspStatus (e : Status) (info : Half) (s : State) : (raiseError e info s).rspStatus = statusCode e := rfl
@[simp] theorem raiseError_rspData (e : Status) (info : Half) (s : State) : (raiseError e info s).rspData = info := rfl
@[simp] theorem raiseError_cfg (e : Status) (info : Half) (s : State) : (raiseError e info s).cfg = s.cfg := rfl
@[simp] theorem raiseError_pins (e : Status) (info : Half) (s : State) : (raiseError e info s).pins = s.pins := rfl
@[simp] theorem raiseError_script (e : Status) (info : Half) (s : State) : (raiseError e info s).script = s.script := rfl
@[simp] theorem raiseError_edges (e : Status) (info : Half) (s : State) : (raiseError e info s).edges = s.edges := rfl

@[simp] theorem offerRequest_st (ph : Phase) (r : Request) (s : State) : (offerRequest ph r s).st = .req := rfl
@[simp] theorem offerRequest_cmd (ph : Phase) (r : Request) (s : State) : (offerRequest ph r s).cmd = s.cmd := rfl
@[simp] theorem offerRequest_ph (ph : Phase) (r : Request) (s : State) : (offerRequest ph r s).ph = ph := rfl
@[simp] theorem offerRequest_old (ph : Phase) (r : Request) (s : State) : (offerRequest ph r s).old = s.old := rfl
@[simp] theorem offerRequest_reqOp (ph : Phase) (r : Request) (s : State) : (offerRequest ph r s).reqOp = r.op := rfl
@[simp] theorem offerRequest_reqAddr (ph : Phase) (r : Request) (s : State) : (offerRequest ph r s).reqAddr = r.addr := rfl
@[simp] theorem offerRequest_reqWdata (ph : Phase) (r : Request) (s : State) : (offerRequest ph r s).reqWdata = r.wdata := rfl
@[simp] theorem offerRequest_rspStatus (ph : Phase) (r : Request) (s : State) : (offerRequest ph r s).rspStatus = s.rspStatus := rfl
@[simp] theorem offerRequest_rspData (ph : Phase) (r : Request) (s : State) : (offerRequest ph r s).rspData = s.rspData := rfl
@[simp] theorem offerRequest_cfg (ph : Phase) (r : Request) (s : State) : (offerRequest ph r s).cfg = s.cfg := rfl
@[simp] theorem offerRequest_pins (ph : Phase) (r : Request) (s : State) : (offerRequest ph r s).pins = s.pins := rfl
@[simp] theorem offerRequest_script (ph : Phase) (r : Request) (s : State) : (offerRequest ph r s).script = s.script := rfl
@[simp] theorem offerRequest_edges (ph : Phase) (r : Request) (s : State) : (offerRequest ph r s).edges = s.edges := rfl

@[simp] theorem resetEdge_st (s : State) : (resetEdge s).st = .idle := rfl
@[simp] theorem resetEdge_cfg (s : State) : (resetEdge s).cfg = s.cfg := rfl
@[simp] theorem resetEdge_pins (s : State) : (resetEdge s).pins = s.pins := rfl
@[simp] theorem resetEdge_script (s : State) : (resetEdge s).script = s.script := rfl
@[simp] theorem resetEdge_edges (s : State) : (resetEdge s).edges = s.edges := rfl

@[simp] theorem sample_st (s : State) : (sample s).st = s.st := by unfold sample; split <;> rfl
@[simp] theorem sample_cmd (s : State) : (sample s).cmd = s.cmd := by unfold sample; split <;> rfl
@[simp] theorem sample_ph (s : State) : (sample s).ph = s.ph := by unfold sample; split <;> rfl
@[simp] theorem sample_old (s : State) : (sample s).old = s.old := by unfold sample; split <;> rfl
@[simp] theorem sample_reqOp (s : State) : (sample s).reqOp = s.reqOp := by unfold sample; split <;> rfl
@[simp] theorem sample_reqAddr (s : State) : (sample s).reqAddr = s.reqAddr := by unfold sample; split <;> rfl
@[simp] theorem sample_reqWdata (s : State) : (sample s).reqWdata = s.reqWdata := by unfold sample; split <;> rfl
@[simp] theorem sample_rspStatus (s : State) : (sample s).rspStatus = s.rspStatus := by unfold sample; split <;> rfl
@[simp] theorem sample_rspData (s : State) : (sample s).rspData = s.rspData := by unfold sample; split <;> rfl
@[simp] theorem sample_cfg (s : State) : (sample s).cfg = s.cfg := by unfold sample; split <;> rfl
@[simp] theorem sample_edges (s : State) : (sample s).edges = s.edges + 1 := by unfold sample; split <;> rfl

@[simp] theorem requestEdge_st (s : State) : (requestEdge s).st = if s.pins.trReqReady then .wait else s.st := by unfold requestEdge; split <;> simp_all
@[simp] theorem requestEdge_cmd (s : State) : (requestEdge s).cmd = s.cmd := by unfold requestEdge; split <;> simp_all
@[simp] theorem requestEdge_ph (s : State) : (requestEdge s).ph = s.ph := by unfold requestEdge; split <;> simp_all
@[simp] theorem requestEdge_old (s : State) : (requestEdge s).old = s.old := by unfold requestEdge; split <;> simp_all
@[simp] theorem requestEdge_reqOp (s : State) : (requestEdge s).reqOp = s.reqOp := by unfold requestEdge; split <;> simp_all
@[simp] theorem requestEdge_reqAddr (s : State) : (requestEdge s).reqAddr = s.reqAddr := by unfold requestEdge; split <;> simp_all
@[simp] theorem requestEdge_reqWdata (s : State) : (requestEdge s).reqWdata = s.reqWdata := by unfold requestEdge; split <;> simp_all
@[simp] theorem requestEdge_rspStatus (s : State) : (requestEdge s).rspStatus = s.rspStatus := by unfold requestEdge; split <;> simp_all
@[simp] theorem requestEdge_rspData (s : State) : (requestEdge s).rspData = s.rspData := by unfold requestEdge; split <;> simp_all
@[simp] theorem requestEdge_cfg (s : State) : (requestEdge s).cfg = s.cfg := by unfold requestEdge; split <;> simp_all
@[simp] theorem requestEdge_pins (s : State) : (requestEdge s).pins = s.pins := by unfold requestEdge; split <;> simp_all
@[simp] theorem requestEdge_script (s : State) : (requestEdge s).script = s.script := by unfold requestEdge; split <;> simp_all
@[simp] theorem requestEdge_edges (s : State) : (requestEdge s).edges = s.edges := by unfold requestEdge; split <;> simp_all

@[simp] theorem deliverEdge_st (s : State) : (deliverEdge s).st = if s.pins.rspReady then .idle else s.st := by unfold deliverEdge; split <;> simp_all
@[simp] theorem deliverEdge_cmd (s : State) : (deliverEdge s).cmd = s.cmd := by unfold deliverEdge; split <;> simp_all
@[simp] theorem deliverEdge_ph (s : State) : (deliverEdge s).ph = s.ph := by unfold deliverEdge; split <;> simp_all
@[simp] theorem deliverEdge_old (s : State) : (deliverEdge s).old = s.old := by unfold deliverEdge; split <;> simp_all
@[simp] theorem deliverEdge_reqOp (s : State) : (deliverEdge s).reqOp = s.reqOp := by unfold deliverEdge; split <;> simp_all
@[simp] theorem deliverEdge_reqAddr (s : State) : (deliverEdge s).reqAddr = s.reqAddr := by unfold deliverEdge; split <;> simp_all
@[simp] theorem deliverEdge_reqWdata (s : State) : (deliverEdge s).reqWdata = s.reqWdata := by unfold deliverEdge; split <;> simp_all
@[simp] theorem deliverEdge_rspStatus (s : State) : (deliverEdge s).rspStatus = s.rspStatus := by unfold deliverEdge; split <;> simp_all
@[simp] theorem deliverEdge_rspData (s : State) : (deliverEdge s).rspData = s.rspData := by unfold deliverEdge; split <;> simp_all
@[simp] theorem deliverEdge_cfg (s : State) : (deliverEdge s).cfg = s.cfg := by unfold deliverEdge; split <;> simp_all
@[simp] theorem deliverEdge_pins (s : State) : (deliverEdge s).pins = s.pins := by unfold deliverEdge; split <;> simp_all
@[simp] theorem deliverEdge_script (s : State) : (deliverEdge s).script = s.script := by unfold deliverEdge; split <;> simp_all
@[simp] theorem deliverEdge_edges (s : State) : (deliverEdge s).edges = s.edges := by unfold deliverEdge; split <;> simp_all

@[simp] theorem keepOld_st (q : Program) (s : State) : (keepOld q s).st = s.st := by unfold keepOld; split <;> simp_all
@[simp] theorem keepOld_cmd (q : Program) (s : State) : (keepOld q s).cmd = s.cmd := by unfold keepOld; split <;> simp_all
@[simp] theorem keepOld_ph (q : Program) (s : State) : (keepOld q s).ph = s.ph := by unfold keepOld; split <;> simp_all
@[simp] theorem keepOld_old (q : Program) (s : State) : (keepOld q s).old = if s.ph = .first ∧ q.isRead then q.readValue s.pins.trRspRdata else s.old := by unfold keepOld; split <;> simp_all
@[simp] theorem keepOld_reqOp (q : Program) (s : State) : (keepOld q s).reqOp = s.reqOp := by unfold keepOld; split <;> simp_all
@[simp] theorem keepOld_reqAddr (q : Program) (s : State) : (keepOld q s).reqAddr = s.reqAddr := by unfold keepOld; split <;> simp_all
@[simp] theorem keepOld_reqWdata (q : Program) (s : State) : (keepOld q s).reqWdata = s.reqWdata := by unfold keepOld; split <;> simp_all
@[simp] theorem keepOld_rspStatus (q : Program) (s : State) : (keepOld q s).rspStatus = s.rspStatus := by unfold keepOld; split <;> simp_all
@[simp] theorem keepOld_rspData (q : Program) (s : State) : (keepOld q s).rspData = s.rspData := by unfold keepOld; split <;> simp_all
@[simp] theorem keepOld_cfg (q : Program) (s : State) : (keepOld q s).cfg = s.cfg := by unfold keepOld; split <;> simp_all
@[simp] theorem keepOld_pins (q : Program) (s : State) : (keepOld q s).pins = s.pins := by unfold keepOld; split <;> simp_all
@[simp] theorem keepOld_script (q : Program) (s : State) : (keepOld q s).script = s.script := by unfold keepOld; split <;> simp_all
@[simp] theorem keepOld_edges (q : Program) (s : State) : (keepOld q s).edges = s.edges := by unfold keepOld; split <;> simp_all

theorem sample_cons (s : State) (p : Inputs) (rest : List Inputs) (h : s.script = p :: rest) :
    (sample s).pins = p ∧ (sample s).script = rest := by
  unfold sample; rw [h]; exact ⟨rfl, rfl⟩

theorem sample_nil (s : State) (h : s.script = []) :
    (sample s).pins = Config.freeInputs s.edges ∧ (sample s).script = [] := by
  unfold sample; simp [h]

end Sys2Proof.Machine
end

