-- ==== Sys2Proof/Laws/Ops.lean ====
section
/-! SUPPORT. One lemma per shared operation of the sequencer that says everything it can do; every later proof cites these. -/

namespace Sys2Proof.Machine

/-- Every meaning is the shared edge at the instruction's own pseudocode. -/
theorem exec_eq_commandEdge (i : Instr) (s : State) : exec i s = commandEdge (programOf i) s := by
  cases i <;> rfl

/-- `execute(CMD)` is the shared edge at the word's pseudocode. -/
theorem executeWord_eq_commandEdge (w : Word) (s : State) : executeWord w s = commandEdge (programOfWord w) s := by
  unfold executeWord programOfWord
  cases decode w with
  | ok i => exact exec_eq_commandEdge i s
  | error _ => rfl

theorem commandEdge_idle {p : Program} {s : State} (h : s.st = .idle) :
    commandEdge p s = .next (runToEffect .first p s) := by
  simp [commandEdge, h]

theorem commandEdge_req {p : Program} {s : State} (h : s.st = .req) : commandEdge p s = .next (requestEdge s) := by
  simp [commandEdge, h]

theorem commandEdge_wait {p : Program} {s : State} (h : s.st = .wait) : commandEdge p s = answerEdge p s := by
  simp [commandEdge, h]

theorem commandEdge_resp {p : Program} {s : State} (h : s.st = .resp) : commandEdge p s = .next (deliverEdge s) := by
  simp [commandEdge, h]

/-- Pseudocode at an end gives the response it says; anywhere else it offers the request of its next primitive. -/
theorem runToEffect_eq (ph : Phase) (p : Program) (s : State) :
    runToEffect ph p s =
      match p with
      | .respond d => respondWith d s
      | .raise e info => raiseError e info s
      | q =>
        match q.request s.cfg.nativeLE with
        | some r => offerRequest ph r s
        | none => s := by
  cases p <;> rfl

/-- At an end: state RESP and nothing of the request registers touched. -/
theorem runToEffect_end {ph : Phase} {p : Program} {s : State} (h : p.request s.cfg.nativeLE = none) :
    ∃ e info, (p = .raise e info ∨ (e = .ok ∧ p = .respond info)) ∧ runToEffect ph p s = raiseError e info s := by
  cases p with
  | respond d => exact ⟨.ok, d, .inr ⟨rfl, rfl⟩, rfl⟩
  | raise e info => exact ⟨e, info, .inl rfl, rfl⟩
  | read8 | read16 | write8 | write16 => cases h

/-- At a primitive: its request is offered. -/
theorem runToEffect_request {ph : Phase} {p : Program} {s : State} {r : Request}
    (h : p.request s.cfg.nativeLE = some r) : runToEffect ph p s = offerRequest ph r s := by
  cases p <;> cases h <;> rfl

@[simp] theorem runToEffect_cfg (ph : Phase) (p : Program) (s : State) : (runToEffect ph p s).cfg = s.cfg := by
  cases p <;> rfl

@[simp] theorem runToEffect_cmd (ph : Phase) (p : Program) (s : State) : (runToEffect ph p s).cmd = s.cmd := by
  cases p <;> rfl

@[simp] theorem runToEffect_old (ph : Phase) (p : Program) (s : State) : (runToEffect ph p s).old = s.old := by
  cases p <;> rfl

@[simp] theorem runToEffect_pins (ph : Phase) (p : Program) (s : State) : (runToEffect ph p s).pins = s.pins := by
  cases p <;> rfl

@[simp] theorem runToEffect_script (ph : Phase) (p : Program) (s : State) : (runToEffect ph p s).script = s.script := by
  cases p <;> rfl

@[simp] theorem runToEffect_edges (ph : Phase) (p : Program) (s : State) : (runToEffect ph p s).edges = s.edges := by
  cases p <;> rfl

/-- Everything an edge in WAIT can end in, when it ends in a next state. -/
theorem answerEdge_next {p : Program} {s t : State} (h : answerEdge p s = .next t) :
    (s.pins.trRspValid = false ∧ t = s) ∨
    (s.pins.trRspValid = true ∧ s.pins.trRspErr = true ∧ t = raiseError .transportError 0x0000 s) ∨
    (s.pins.trRspValid = true ∧ s.pins.trRspErr = false ∧ ∃ q rest, p.inFlight s.ph s.old = some q ∧
      q.resume s.pins.trRspRdata = some rest ∧ t = runToEffect .second rest (keepOld q s)) := by
  unfold answerEdge at h
  split at h
  case isFalse hv => cases h; exact .inl ⟨by simpa using hv, rfl⟩
  case isTrue hv =>
    split at h
    case isTrue he => cases h; exact .inr (.inl ⟨hv, he, rfl⟩)
    case isFalse he =>
      split at h
      · cases h
      · split at h
        · cases h
        · cases h
          exact .inr (.inr ⟨hv, by simpa using he, _, _, ‹_›, ‹_›, rfl⟩)

/-- A good answer with the command at a transaction goes on with its pseudocode. -/
theorem answerEdge_good {p q rest : Program} {s : State} (hv : s.pins.trRspValid = true) (he : s.pins.trRspErr = false)
    (hq : p.inFlight s.ph s.old = some q) (hr : q.resume s.pins.trRspRdata = some rest) :
    answerEdge p s = .next (runToEffect .second rest (keepOld q s)) := by
  simp [answerEdge, hv, he, hq, hr]

/-- An error answer ends the command, whatever it is. -/
theorem answerEdge_error {p : Program} {s : State} (hv : s.pins.trRspValid = true) (he : s.pins.trRspErr = true) :
    answerEdge p s = .next (raiseError .transportError 0x0000 s) := by
  simp [answerEdge, hv, he]

theorem answerEdge_none {p : Program} {s : State} (hv : s.pins.trRspValid = false) : answerEdge p s = .next s := by
  simp [answerEdge, hv]

/-- A first read's answer is kept. -/
theorem keepOld_read {q : Program} {s : State} (hp : s.ph = .first) (hq : q.isRead = true) :
    keepOld q s = { s with old := q.readValue s.pins.trRspRdata } := by
  simp only [keepOld, hp, hq, and_self, if_true]

/-- A write's answer changes no register. -/
theorem keepOld_write {q : Program} {s : State} (hq : q.isRead = false) : keepOld q s = s := by
  simp [keepOld, hq]

/-- A second answer changes no register. -/
theorem keepOld_second {q : Program} {s : State} (hp : s.ph = .second) : keepOld q s = s := by
  simp [keepOld, hp]

/-- A command at its acceptance. -/
theorem exec_idle {i : Instr} {s : State} (h : s.st = .idle) : exec i s = .next (runToEffect .first (programOf i) s) := by
  rw [exec_eq_commandEdge, commandEdge_idle h]

/-- A command at the good answer to its first transaction. -/
theorem exec_atFirstAnswer {i : Instr} {s : State} {rest : Program} (h : AtFirstAnswer s)
    (hr : (programOf i).resume s.pins.trRspRdata = some rest) :
    exec i s = .next (runToEffect .second rest (keepOld (programOf i) s)) := by
  obtain ⟨hw, hp, hv, he⟩ := h
  rw [exec_eq_commandEdge, commandEdge_wait hw, answerEdge_good hv he (by rw [hp]; rfl) hr]

/-- A command at the good answer to its second transaction. -/
theorem exec_atSecondAnswer {i : Instr} {s : State} {q rest : Program} (h : AtSecondAnswer s)
    (hq : (programOf i).resume s.old = some q) (hr : q.resume s.pins.trRspRdata = some rest) :
    exec i s = .next (runToEffect .second rest s) := by
  obtain ⟨hw, hp, hv, he⟩ := h
  rw [exec_eq_commandEdge, commandEdge_wait hw, answerEdge_good hv he (by rw [hp]; exact hq) hr, keepOld_second hp]

/-- Any command at an error answer. -/
theorem exec_atErrorAnswer {i : Instr} {s : State} (h : AtErrorAnswer s) :
    exec i s = .next (raiseError .transportError 0x0000 s) := by
  obtain ⟨hw, hv, he⟩ := h
  rw [exec_eq_commandEdge, commandEdge_wait hw, answerEdge_error hv he]

/-- Everything a step is, by the sampled inputs and the sequencer's state: the one place where it is unfolded. -/
theorem step_eq (s : State) :
    step s =
      if (sample s).pins.rst then .next (resetEdge (sample s))
      else
        match s.st with
        | .idle =>
          if (sample s).pins.cmdValid then
            .next (runToEffect .first (programOfWord (sample s).pins.cmdWord) (accept (sample s).pins.cmdWord (sample s)))
          else .next (sample s)
        | .req => .next (requestEdge (sample s))
        | .wait => answerEdge (programOfWord s.cmd) (sample s)
        | .resp => .next (deliverEdge (sample s)) := by
  unfold step sequencerEdge
  split
  · rfl
  · simp only [sample_st]
    cases hs : s.st with
    | idle => simp [executeWord_eq_commandEdge, commandEdge_idle, hs]
    | wait => simp [executeWord_eq_commandEdge, commandEdge_wait, hs]
    | req | resp => rfl

theorem inFlight_first (p : Program) (old : Half) : p.inFlight .first old = some p := rfl

theorem inFlight_second (p : Program) (old : Half) : p.inFlight .second old = p.resume old := rfl

/-- The value kept in `OLD` resumes a read as the answer itself does. -/
theorem resume_readValue (p : Program) (v : Half) : p.resume (p.readValue v) = p.resume v := by
  cases p with
  | read8 a k =>
    simp only [Program.resume, Program.readValue, Option.some.injEq]
    congr 1
    simp only [lowByte, zext16]
    ext i hi
    simp only [BitVec.getElem_extractLsb', BitVec.getLsbD_setWidth]
    grind
  | respond | raise | read16 | write8 | write16 => rfl

/-- A primitive has a request exactly when it can be resumed. -/
theorem request_isSome_iff_resume (p : Program) (le : Bool) (v : Half) :
    (p.request le).isSome = (p.resume v).isSome := by
  cases p <;> rfl

/-- A command word's pseudocode is at an end after its second transaction (10_state.md R40). -/
theorem programOfWord_thirdEffect_end (w : Word) (u v : Half) (q r : Program)
    (h1 : (programOfWord w).resume u = some q) (h2 : q.resume v = some r) (le : Bool) : r.request le = none := by
  unfold programOfWord at h1
  split at h1
  · rename_i i _
    cases i <;> simp only [programOf, programSethyst, programSetres] at h1
    case sethyst =>
      split at h1
      · cases h1
      · cases h1
        cases h2
        rfl
    case setres =>
      split at h1 <;> cases h1
      cases h2
    case getres =>
      cases h1
      dsimp only at h2
      split at h2 <;> cases h2
    all_goals cases h1
    all_goals cases h2
    all_goals rfl
  · cases h1

/-- Pseudocode run to its next effect either offers that effect's request, in REQ, or ends, in RESP. -/
theorem runToEffect_st (ph : Phase) (p : Program) (s : State) :
    ((runToEffect ph p s).st = .req ∧
      ∃ r, p.request s.cfg.nativeLE = some r ∧ runToEffect ph p s = offerRequest ph r s) ∨
    ((runToEffect ph p s).st = .resp ∧ p.request s.cfg.nativeLE = none) := by
  cases p <;> simp [runToEffect, Program.request]

/-- Everything a step that goes on can be: the one inversion lemma later proofs take apart. -/
theorem step_next_cases {s t : State} (h : step s = .next t) :
    ((sample s).pins.rst = true ∧ t = resetEdge (sample s)) ∨
    ((sample s).pins.rst = false ∧
      ((s.st = .idle ∧ (sample s).pins.cmdValid = true ∧
          t = runToEffect .first (programOfWord (sample s).pins.cmdWord) (accept (sample s).pins.cmdWord (sample s))) ∨
        (s.st = .idle ∧ (sample s).pins.cmdValid = false ∧ t = sample s) ∨
        (s.st = .req ∧ t = requestEdge (sample s)) ∨
        (s.st = .wait ∧ answerEdge (programOfWord s.cmd) (sample s) = .next t) ∨
        (s.st = .resp ∧ t = deliverEdge (sample s)))) := by
  rw [step_eq] at h
  split at h
  case isTrue hr => cases h; exact .inl ⟨hr, rfl⟩
  case isFalse hr =>
    refine .inr ⟨by simpa using hr, ?_⟩
    split at h
    · split at h
      case isTrue hv => cases h; exact .inl ⟨‹_›, hv, rfl⟩
      case isFalse hv => cases h; exact .inr (.inl ⟨‹_›, by simpa using hv, rfl⟩)
    · cases h; exact .inr (.inr (.inl ⟨‹_›, rfl⟩))
    · exact .inr (.inr (.inr (.inl ⟨‹_›, h⟩)))
    · cases h; exact .inr (.inr (.inr (.inr ⟨‹_›, rfl⟩)))

/-- The transaction-level meaning of a primitive with no answer yet: its request, and it waits. -/
theorem transact_nil {le : Bool} {q : Program} {r : Request} (h : q.request le = some r) :
    q.transact le [] = { requests := [r], response := none } := by
  cases q <;> cases h <;> rfl

/-- A failed answer ends the command. -/
theorem transact_error {le : Bool} {q : Program} {r : Request} {a : Answer} (as : List Answer)
    (h : q.request le = some r) (ha : a.err = true) :
    q.transact le (a :: as) = { requests := [r], response := some (.transportError, 0) } := by
  cases q <;> cases h <;> simp [Program.transact, ha]

/-- A good answer goes on. -/
theorem transact_good {le : Bool} {q rest : Program} {r : Request} {a : Answer} (as : List Answer)
    (h : q.request le = some r) (ha : a.err = false) (hr : q.resume a.rdata = some rest) :
    q.transact le (a :: as) =
      { requests := r :: (rest.transact le as).requests, response := (rest.transact le as).response } := by
  cases q <;> cases h <;> cases hr <;> simp [Program.transact, ha]

end Sys2Proof.Machine
end

