-- ==== Sys2Proof/Laws/PerInstr.lean ====
section
/-! SUPPORT. The statement made of every instruction as syntax, one lemma per constructor: its word passes `legal(CMD)` of
30_encoding.md R66, whatever its operand. -/

namespace Sys2Proof.Laws.Encoding

/-- The instruction's word is legal (30_encoding.md R66). -/
def Statement (i : Instr) : Prop := (fieldsOf (encode i)).legal = true

theorem of_fields {i : Instr} (h : (encodeFields i).legal = true) : Statement i := by
  rw [Statement, encode, fieldsOf_wordOf]; exact h

theorem deca (raw : Half) : Statement (.deca raw) := of_fields rfl
theorem dect (raw : Half) : Statement (.dect raw) := of_fields rfl
theorem encA (temp : Half) : Statement (.encA temp) := of_fields rfl
theorem encT (temp : Half) : Statement (.encT temp) := of_fields rfl
theorem setfAlertMode : Statement .setfAlertMode := of_fields rfl
theorem setfAlertPol : Statement .setfAlertPol := of_fields rfl
theorem setfAlertSel : Statement .setfAlertSel := of_fields rfl
theorem setfAlertCtrl : Statement .setfAlertCtrl := of_fields rfl
theorem setfAlertStat : Statement .setfAlertStat := of_fields rfl
theorem setfIntClear : Statement .setfIntClear := of_fields rfl
theorem setfWinLock : Statement .setfWinLock := of_fields rfl
theorem setfCritLock : Statement .setfCritLock := of_fields rfl
theorem setfShutdown : Statement .setfShutdown := of_fields rfl
theorem clrfAlertMode : Statement .clrfAlertMode := of_fields rfl
theorem clrfAlertPol : Statement .clrfAlertPol := of_fields rfl
theorem clrfAlertSel : Statement .clrfAlertSel := of_fields rfl
theorem clrfAlertCtrl : Statement .clrfAlertCtrl := of_fields rfl
theorem clrfAlertStat : Statement .clrfAlertStat := of_fields rfl
theorem clrfIntClear : Statement .clrfIntClear := of_fields rfl
theorem clrfWinLock : Statement .clrfWinLock := of_fields rfl
theorem clrfCritLock : Statement .clrfCritLock := of_fields rfl
theorem clrfShutdown : Statement .clrfShutdown := of_fields rfl
theorem sethyst (temp : Half) : Statement (.sethyst temp) := of_fields rfl
theorem setres (temp : Half) : Statement (.setres temp) := of_fields rfl
theorem getres : Statement .getres := of_fields rfl
theorem islock : Statement .islock := of_fields rfl
theorem setlimUpper (temp : Half) : Statement (.setlimUpper temp) := of_fields rfl
theorem setlimLower (temp : Half) : Statement (.setlimLower temp) := of_fields rfl
theorem setlimCrit (temp : Half) : Statement (.setlimCrit temp) := of_fields rfl
theorem getlimUpper : Statement .getlimUpper := of_fields rfl
theorem getlimLower : Statement .getlimLower := of_fields rfl
theorem getlimCrit : Statement .getlimCrit := of_fields rfl
theorem getamb : Statement .getamb := of_fields rfl
theorem getalert : Statement .getalert := of_fields rfl
theorem beginCheck : Statement .beginCheck := of_fields rfl

/-- Every term of `Instr` is a legal command. -/
theorem legal_encode (i : Instr) : (fieldsOf (encode i)).legal = true := by
  cases i
  case deca => exact deca _
  case dect => exact dect _
  case encA => exact encA _
  case encT => exact encT _
  case setfAlertMode => exact setfAlertMode
  case setfAlertPol => exact setfAlertPol
  case setfAlertSel => exact setfAlertSel
  case setfAlertCtrl => exact setfAlertCtrl
  case setfAlertStat => exact setfAlertStat
  case setfIntClear => exact setfIntClear
  case setfWinLock => exact setfWinLock
  case setfCritLock => exact setfCritLock
  case setfShutdown => exact setfShutdown
  case clrfAlertMode => exact clrfAlertMode
  case clrfAlertPol => exact clrfAlertPol
  case clrfAlertSel => exact clrfAlertSel
  case clrfAlertCtrl => exact clrfAlertCtrl
  case clrfAlertStat => exact clrfAlertStat
  case clrfIntClear => exact clrfIntClear
  case clrfWinLock => exact clrfWinLock
  case clrfCritLock => exact clrfCritLock
  case clrfShutdown => exact clrfShutdown
  case sethyst => exact sethyst _
  case setres => exact setres _
  case getres => exact getres
  case islock => exact islock
  case setlimUpper => exact setlimUpper _
  case setlimLower => exact setlimLower _
  case setlimCrit => exact setlimCrit _
  case getlimUpper => exact getlimUpper
  case getlimLower => exact getlimLower
  case getlimCrit => exact getlimCrit
  case getamb => exact getamb
  case getalert => exact getalert
  case beginCheck => exact beginCheck

end Sys2Proof.Laws.Encoding
end

