-- ==== Sys2Proof/Tests/Slice0.lean ====
section
/-! SUPPORT. The model's own tests. Expected values come from spec/: 30_encoding.md R72 for words, 95_test_vectors.md for
results. At the end, one witness for each statement with hypotheses. -/

namespace Sys2Proof.Tests

open Sys2Proof Sys2Proof.Machine

/-! ## Builders -/

/-- The machine after reset with one edge's inputs laid down. -/
def withInputs (p : Inputs) : State := { State.reset with script := [p] }

/-- A machine that waits for the answer to a transaction of a command, with that answer at its pins. -/
def answering (i : Instr) (ph : Phase) (old rdata : Half) (err : Bool) : State :=
  { State.reset with
    st := .wait, cmd := encode i, ph := ph, old := old,
    pins := { Inputs.quiet with trRspValid := true, trRspErr := err, trRspRdata := rdata } }

/-- Status and data of a command's end, if the outcome is one. -/
def ended : Host.Outcome State Fault Refusal → Option (BitVec 3 × Half)
  | .next t => if t.st = .resp then some (t.rspStatus, t.rspData) else none
  | .fault _ => none
  | .refused _ => none

/-- The request an outcome offers, if it offers one. -/
def offered : Host.Outcome State Fault Refusal → Option (ReqOp × Byte × Half)
  | .next t => if t.st = .req then some (t.reqOp, t.reqAddr, t.reqWdata) else none
  | .fault _ => none
  | .refused _ => none

/-- The outcome of the edge that accepts a word, right after reset. -/
def accepting (w : Nat) : Host.Outcome State Fault Refusal := step (State.reset.withFetchWord 32 w)

/-! ## WellFormed: an ill-formed command for each check -/

theorem test_legal_accepts : Cmd.legal { opc := 0x03, sel := 0x01, opnd := 0xFFFF } = true := by decide
theorem test_legal_refuses_reserved_opcode : Cmd.legal { opc := 0x04, sel := 0x00, opnd := 0x0000 } = false := by decide
theorem test_legal_refuses_opcode_zero : Cmd.legal { opc := 0x00, sel := 0x00, opnd := 0x0000 } = false := by decide
theorem test_legal_refuses_selector_of_deca : Cmd.legal { opc := 0x01, sel := 0x01, opnd := 0x0190 } = false := by decide
theorem test_legal_refuses_selector_of_enc : Cmd.legal { opc := 0x03, sel := 0x02, opnd := 0x0000 } = false := by decide
theorem test_legal_refuses_selector_of_setf : Cmd.legal { opc := 0x10, sel := 0x09, opnd := 0x0000 } = false := by decide
theorem test_legal_refuses_selector_of_getlim : Cmd.legal { opc := 0x21, sel := 0x03, opnd := 0x0000 } = false := by decide
theorem test_legal_refuses_operand_of_getamb : Cmd.legal { opc := 0x22, sel := 0x00, opnd := 0x0001 } = false := by decide

/-! ## Decode: every constructor's word, from 30_encoding.md R72 -/

theorem test_decode_codec :
    decode 0x01000190 = .ok (.deca 0x0190) ∧ decode 0x02000193 = .ok (.dect 0x0193) ∧
    decode 0x030001E0 = .ok (.encA 0x01E0) ∧ decode 0x030101E0 = .ok (.encT 0x01E0) := by decide
theorem test_decode_setf :
    decode 0x10000000 = .ok .setfAlertMode ∧
    decode 0x10010000 = .ok .setfAlertPol ∧
    decode 0x10020000 = .ok .setfAlertSel ∧
    decode 0x10030000 = .ok .setfAlertCtrl ∧
    decode 0x10040000 = .ok .setfAlertStat ∧
    decode 0x10050000 = .ok .setfIntClear ∧
    decode 0x10060000 = .ok .setfWinLock ∧
    decode 0x10070000 = .ok .setfCritLock ∧
    decode 0x10080000 = .ok .setfShutdown := by decide
theorem test_decode_clrf :
    decode 0x11000000 = .ok .clrfAlertMode ∧
    decode 0x11010000 = .ok .clrfAlertPol ∧
    decode 0x11020000 = .ok .clrfAlertSel ∧
    decode 0x11030000 = .ok .clrfAlertCtrl ∧
    decode 0x11040000 = .ok .clrfAlertStat ∧
    decode 0x11050000 = .ok .clrfIntClear ∧
    decode 0x11060000 = .ok .clrfWinLock ∧
    decode 0x11070000 = .ok .clrfCritLock ∧
    decode 0x11080000 = .ok .clrfShutdown := by decide
theorem test_decode_config :
    decode 0x12000018 = .ok (.sethyst 0x0018) ∧ decode 0x13000001 = .ok (.setres 0x0001) ∧
    decode 0x14000000 = .ok .getres ∧ decode 0x15000000 = .ok .islock := by decide
theorem test_decode_limits :
    decode 0x200001E0 = .ok (.setlimUpper 0x01E0) ∧ decode 0x2001FF30 = .ok (.setlimLower 0xFF30) ∧
    decode 0x20020193 = .ok (.setlimCrit 0x0193) ∧ decode 0x21000000 = .ok .getlimUpper ∧
    decode 0x21010000 = .ok .getlimLower ∧ decode 0x21020000 = .ok .getlimCrit ∧ decode 0x22000000 = .ok .getamb ∧
    decode 0x23000000 = .ok .getalert ∧ decode 0x30000000 = .ok .beginCheck := by decide
theorem test_decode_rejects_by_name :
    decode 0xFFFFFFFF = .error .reservedOpcode ∧ decode 0x110A0000 = .error .selectorOutOfRange ∧
    decode 0x10000001 = .error .operandNotZero ∧ decode 0x21030000 = .error .selectorOutOfRange ∧
    decode 0x30000054 = .error .operandNotZero := by decide
theorem test_every_table_row_runs_after_reset :
    (opcodeRows.all fun r =>
      (decodeTableWord 32 r.1.toNat).isSome &&
        ((ended (accepting r.1.toNat)).isSome || (offered (accepting r.1.toNat)).isSome)) = true := by decide

/-! ## The codec: 95_test_vectors.md section 2 -/

theorem test_deca : ended (accepting 0x010011D0) = some (0, 0xFE30) ∧ ended (accepting 0x01001000) = some (0, 0x0000) := by
  decide
theorem test_dect : ended (accepting 0x02001007) = some (0, 0xFFFC) ∧ ended (accepting 0x0200FFFF) = some (0, 0xF004) := by
  decide
theorem test_encA : ended (accepting 0x0300FE61) = some (0, 0x119C) ∧ ended (accepting 0x03001004) = some (0, 0x0004) := by
  decide
theorem test_encT : ended (accepting 0x0301FFFF) = some (0, 0x1000) ∧ ended (accepting 0x03018000) = some (0, 0x1000) := by
  decide
theorem test_wire_word : wireWord true 0xFFBF = 0xBFFF ∧ wireWord false 0xFFBF = 0xFFBF := by decide

/-! ## The controller: 95_test_vectors.md section 3 -/

/-- The wire word of each flag from old = 0x0000, then the answer from old = 0x1234. -/
theorem test_setf_writes :
    ([(Instr.setfAlertMode, (0x0100 : Half)), (.setfAlertPol, 0x0200), (.setfAlertSel, 0x0400), (.setfAlertCtrl, 0x0800),
      (.setfAlertStat, 0x1000), (.setfIntClear, 0x2000), (.setfWinLock, 0x4000), (.setfCritLock, 0x8000), (.setfShutdown, 0x0001)].all fun p =>
      offered (exec p.1 (answering p.1 .first 0 0x0000 false)) == some (.wr16, 0x01, p.2)) = true := by decide
theorem test_setf_answers :
    ended (exec .setfAlertMode (answering .setfAlertMode .second 0x1234 0 false)) = some (0, 0x1235) ∧
    ended (exec .setfAlertPol (answering .setfAlertPol .second 0x1234 0 false)) = some (0, 0x1236) ∧
    ended (exec .setfAlertSel (answering .setfAlertSel .second 0x1234 0 false)) = some (0, 0x1234) ∧
    ended (exec .setfAlertCtrl (answering .setfAlertCtrl .second 0x1234 0 false)) = some (0, 0x123C) ∧
    ended (exec .setfAlertStat (answering .setfAlertStat .second 0x1234 0 false)) = some (0, 0x1234) ∧
    ended (exec .setfIntClear (answering .setfIntClear .second 0x1234 0 false)) = some (0, 0x1234) ∧
    ended (exec .setfWinLock (answering .setfWinLock .second 0x1234 0 false)) = some (0, 0x1274) ∧
    ended (exec .setfCritLock (answering .setfCritLock .second 0x1234 0 false)) = some (0, 0x12B4) ∧
    ended (exec .setfShutdown (answering .setfShutdown .second 0x1234 0 false)) = some (0, 0x1334) := by decide
/-- The wire word of each flag from old = 0xFFFF, then the answer from old = 0x1234. -/
theorem test_clrf_writes :
    ([(Instr.clrfAlertMode, (0xFEFF : Half)), (.clrfAlertPol, 0xFDFF), (.clrfAlertSel, 0xFBFF), (.clrfAlertCtrl, 0xF7FF),
      (.clrfAlertStat, 0xEFFF), (.clrfIntClear, 0xDFFF), (.clrfWinLock, 0xBFFF), (.clrfCritLock, 0x7FFF), (.clrfShutdown, 0xFFFE)].all fun p =>
      offered (exec p.1 (answering p.1 .first 0 0xFFFF false)) == some (.wr16, 0x01, p.2)) = true := by decide
theorem test_clrf_answers :
    ended (exec .clrfAlertMode (answering .clrfAlertMode .second 0x1234 0 false)) = some (0, 0x1234) ∧
    ended (exec .clrfAlertPol (answering .clrfAlertPol .second 0x1234 0 false)) = some (0, 0x1234) ∧
    ended (exec .clrfAlertSel (answering .clrfAlertSel .second 0x1234 0 false)) = some (0, 0x1230) ∧
    ended (exec .clrfAlertCtrl (answering .clrfAlertCtrl .second 0x1234 0 false)) = some (0, 0x1234) ∧
    ended (exec .clrfAlertStat (answering .clrfAlertStat .second 0x1234 0 false)) = some (0, 0x1224) ∧
    ended (exec .clrfIntClear (answering .clrfIntClear .second 0x1234 0 false)) = some (0, 0x1214) ∧
    ended (exec .clrfWinLock (answering .clrfWinLock .second 0x1234 0 false)) = some (0, 0x1234) ∧
    ended (exec .clrfCritLock (answering .clrfCritLock .second 0x1234 0 false)) = some (0, 0x1234) ∧
    ended (exec .clrfShutdown (answering .clrfShutdown .second 0x1234 0 false)) = some (0, 0x1234) := by decide
theorem test_sethyst_writes :
    offered (exec (.sethyst 0x0060) (answering (.sethyst 0x0060) .first 0 0x0201 false)) = some (.wr16, 0x01, 0x0106) := by
  decide
theorem test_sethyst_refuses : ended (accepting 0x12000017) = some (1, 0) ∧ ended (accepting 0x12010018) = some (3, 0) := by
  decide
theorem test_setres_writes : offered (accepting 0x13000001) = some (.wr8, 0x08, 0x0003) := by decide
theorem test_setres_refuses : ended (accepting 0x13000003) = some (1, 0) ∧ ended (accepting 0x1300FFF8) = some (1, 0) := by
  decide
theorem test_getres_answers :
    ended (exec .getres (answering .getres .first 0 0xAB03 false)) = some (0, 0x0103) ∧
    ended (exec .getres (answering .getres .first 0 0x0001 false)) = some (0, 0x0401) := by decide
theorem test_getres_reserved :
    ended (exec .getres (answering .getres .first 0 0x0007 false)) = some (4, 0x0007) ∧
    ended (exec .getres (answering .getres .first 0 0x0010 true)) = some (2, 0x0000) := by decide
theorem test_islock :
    ended (exec .islock (answering .islock .first 0 0x0040 false)) = some (0, 1) ∧
    ended (exec .islock (answering .islock .first 0 0xFF3F false)) = some (0, 0) := by decide

/-! ## Limits, ambient, alert, identity: 95_test_vectors.md section 4 -/

theorem test_setlim_writes :
    offered (accepting 0x200001E0) = some (.wr16, 0x02, 0xE001) ∧ offered (accepting 0x2001FF30) = some (.wr16, 0x03, 0xD010) ∧
    offered (accepting 0x20020193) = some (.wr16, 0x04, 0x9001) := by decide
theorem test_setlim_answers :
    ended (exec (.setlimUpper 0xFFFF) (answering (.setlimUpper 0xFFFF) .first 0 0 false)) = some (0, 0x1000) ∧
    ended (exec (.setlimLower 0xFF30) (answering (.setlimLower 0xFF30) .first 0 0 false)) = some (0, 0x10D0) ∧
    ended (exec (.setlimCrit 0x1000) (answering (.setlimCrit 0x1000) .first 0 0 false)) = some (0, 0x0000) := by decide
theorem test_getlim_reads :
    offered (accepting 0x21000000) = some (.rd16, 0x02, 0) ∧ offered (accepting 0x21010000) = some (.rd16, 0x03, 0) ∧
    offered (accepting 0x21020000) = some (.rd16, 0x04, 0) := by decide
theorem test_getlim_answers :
    ended (exec .getlimUpper (answering .getlimUpper .first 0 0x01E0 false)) = some (0, 0x01E0) ∧
    ended (exec .getlimLower (answering .getlimLower .first 0 0x10D0 false)) = some (0, 0xFF30) ∧
    ended (exec .getlimCrit (answering .getlimCrit .first 0 0x9F03 false)) = some (0, 0xF100) := by decide
theorem test_getamb :
    ended (exec .getamb (answering .getamb .first 0 0x41D4 false)) = some (0, 0x01D4) ∧
    ended (exec .getamb (answering .getamb .first 0 0x1001 false)) = some (0, 0xFFFF) := by decide
theorem test_getalert :
    ended (exec .getalert (answering .getalert .first 0 0xC190 false)) = some (0, 0x0006) ∧
    ended (exec .getalert (answering .getalert .first 0 0x2000 false)) = some (0, 0x0001) := by decide
theorem test_begin_reads_on :
    offered (exec .beginCheck (answering .beginCheck .first 0 0x0055 false)) = some (.rd16, 0x07, 0) := by decide
theorem test_begin_answers :
    ended (exec .beginCheck (answering .beginCheck .second 0x0054 0x0400 false)) = some (0, 1) ∧
    ended (exec .beginCheck (answering .beginCheck .second 0x0054 0x0401 false)) = some (0, 0) := by decide

/-! ## The edges: 95_test_vectors.md section 6, edges 1 and 3 -/

theorem test_trace_edge_1 : offered (accepting 0x12000018) = some (.rd16, 0x01, 0x0000) := by decide
theorem test_trace_edge_3 :
    offered (exec (.sethyst 0x0018) (answering (.sethyst 0x0018) .first 0 0x0000 false)) = some (.wr16, 0x01, 0x0002) := by
  decide

/-! ## Beside the machine -/

/-- 95_test_vectors.md section 7, P1's second command, and P2's first. -/
theorem test_assembler_commands :
    assemble ['S', 'E', 'T', 'H', 'Y', 'S', 'T', ' ', '1', '.', '5', ' ', ';', ' ', 'x'] = .command 0x12000018 ∧
    assemble ['s', 'e', 't', 'l', 'i', 'm', ' ', 'u', 'p', 'p', 'e', 'r', ',', ' ', '3', '0', '.', '0'] =
      .command 0x200001E0 := by decide
theorem test_assembler_refuses :
    assemble ['S', 'E', 'T', 'R', 'E', 'S', ' ', '0', '.', '0', '3'] = .refused ∧
    assemble ['D', 'E', 'C', 'A', ' ', '0', 'x', '1', '0', '0', '0', '0'] = .refused := by decide
theorem test_disassembler :
    disassemble 0x0301FFFF = ['E', 'N', 'C', ' ', 'T', ',', ' ', '-', '0', '.', '0', '6', '2', '5'] ∧
    disassemble 0x10090000 = ['.', 'w', 'o', 'r', 'd', ' ', '0', 'x', '1', '0', '0', '9', '0', '0', '0', '0'] := by decide
/-- 95_test_vectors.md section 7, P1: SETF WIN_LOCK from config 0x0208. -/
theorem test_reference_device :
    runOnRef true { config := 0x0208, upper := 0, lower := 0, critical := 0, ambient := 0, manufacturerId := 0x0054,
                    deviceId := 0x0400, resolution := 3 } (programSetf .winLock) =
      ([{ op := .rd16, addr := 0x01, wdata := 0 }, { op := .wr16, addr := 0x01, wdata := 0x4802 }], (.ok, 0x0248),
       { config := 0x0248, upper := 0, lower := 0, critical := 0, ambient := 0, manufacturerId := 0x0054,
         deviceId := 0x0400, resolution := 3 }) := by decide

/-! ## Witnesses: a state and operands that meet the hypotheses of each statement, clause by clause -/

/-- A machine in the given state of the sequencer with SETF SHUTDOWN's first read in flight and the given inputs to come. -/
def busy (st : SeqState) (p : Inputs) : State :=
  { State.reset with st := st, cmd := 0x10080000, reqOp := .rd16, reqAddr := 0x01, script := [p] }

/-- The inputs of an edge at which everyone is eager. -/
def eager (w : Word) : Inputs :=
  { Inputs.quiet with cmdValid := true, cmdWord := w, rspReady := true, trReqReady := true, trRspValid := true }

theorem busy_consistent (st : SeqState) (h : st ≠ .resp) (p : Inputs) : Consistent (busy st p) :=
  ⟨fun _ =>
    have hreq : pendingRequest (busy .req Inputs.quiet) = some { op := .rd16, addr := 0x01, wdata := 0 } := by decide
    hreq, fun hr => absurd hr h⟩

theorem resp_consistent : Consistent { State.reset with st := .resp, cmd := 0x10080000 } :=
  ⟨fun h => by (rcases h with h | h <;> cases h), fun _ => ⟨.ok, by decide, by decide, fun _ _ => rfl⟩⟩

theorem witness_EncodeOfDecode : decode 0xFFFFFFFF ≠ .ok .getres ∧ decode 0x14000000 = .ok .getres := by decide
theorem witness_ReservedOpcodesAreIllegal :
    (fieldsOf 0x00123456).opc.toNat = 0x00 ∧ (fieldsOf 0x04000000).opc.toNat = 0x04 ∧ (fieldsOf 0x0F000000).opc.toNat = 0x0F ∧
    (fieldsOf 0x16000000).opc.toNat = 0x16 ∧ (fieldsOf 0x1F000000).opc.toNat = 0x1F ∧ (fieldsOf 0x24000000).opc.toNat = 0x24 ∧
    (fieldsOf 0x2F000000).opc.toNat = 0x2F ∧ (fieldsOf 0x31000000).opc.toNat = 0x31 ∧ (fieldsOf 0xFF000000).opc.toNat = 0xFF := by
  decide
theorem witness_EndsIllegal : State.reset.st = .idle := rfl
theorem witness_IllegalWordEndsTheCommand :
    (sample (withInputs (offerCommand 0x10090000))).pins.rst = false ∧ (withInputs (offerCommand 0x10090000)).st = .idle ∧
    (sample (withInputs (offerCommand 0x10090000))).pins.cmdValid = true ∧
    (fieldsOf (sample (withInputs (offerCommand 0x10090000))).pins.cmdWord).legal = false := by decide
theorem witness_DecodeIsSignAndMagnitude : (0x1000 : Half) &&& 0x0FFF = 0 := by decide
theorem witness_DecodeLaws :
    (0xE190 : Half) &&& 0x1FFF = 0x0190 &&& 0x1FFF ∧ (0xE193 : Half) &&& 0x1FFC = 0x0190 &&& 0x1FFC := by decide
theorem witness_EncodeLaws : (toS16 0x0FFF).natAbs ≤ 4095 ∧ (toS16 0xF001).natAbs ≤ 4095 := by decide
theorem witness_CodecRoundTrip : (0x1FFC : Half) &&& 0xE003 = 0 ∧ (0x1FFC : Half) ≠ 0x1000 := by decide
theorem witness_HostMapping : (-2048 : ℚ) ≤ -1 / 100 ∧ (-1 / 100 : ℚ) ≤ 32767 / 16 := by norm_num
theorem witness_illegal_selectors :
    (0x01 : Byte) ≠ 0 ∧ 1 < (0x02 : Byte).toNat ∧ 8 < (0x09 : Byte).toNat ∧ 2 < (0x03 : Byte).toNat ∧ (0x0001 : Half) ≠ 0 := by
  decide
theorem witness_acceptance : State.reset.st = .idle := rfl
theorem witness_AtFirstAnswer : AtFirstAnswer (answering .setfShutdown .first 0 0x0100 false) := by
  unfold AtFirstAnswer; decide
theorem witness_AtSecondAnswer : AtSecondAnswer (answering .setfShutdown .second 0x0100 0 false) := by
  unfold AtSecondAnswer; decide
theorem witness_AtErrorAnswer : AtErrorAnswer (answering .setfShutdown .first 0 0 true) := by
  unfold AtErrorAnswer; decide
theorem witness_invalid_operands :
    (0x0017 : Half) ∉ ([0x0000, 0x0018, 0x0030, 0x0060] : List Half) ∧
    (0x0003 : Half) ∉ ([0x0008, 0x0004, 0x0002, 0x0001] : List Half) := by decide
theorem witness_GetresAnswers :
    (answering .getres .first 0 0xAB00 false).pins.trRspRdata.extractLsb' 0 8 = (0x00 : Byte) ∧
    (answering .getres .first 0 0xAB03 false).pins.trRspRdata.extractLsb' 0 8 = (0x03 : Byte) ∧
    3 < ((answering .getres .first 0 0x0004 false).pins.trRspRdata.extractLsb' 0 8).toNat := by decide
theorem witness_FlagLaws : (Flag.shutdown : Flag) ≠ .alertMode := by decide
theorem witness_WiresCarryTheHighByteFirst : (0x00FF : Half).toNat ≤ 0x00FF := by decide
theorem witness_StepRunsTheDecodedCommand :
    (sample (withInputs (offerCommand 0x10080000))).pins.rst = false ∧
    (sample (withInputs (offerCommand 0x10080000))).pins.cmdValid = true ∧
    decode (sample (withInputs (offerCommand 0x10080000))).pins.cmdWord = .ok .setfShutdown ∧
    (busy .wait Inputs.quiet).st = .wait ∧ decode (busy .wait Inputs.quiet).cmd = .ok .setfShutdown := by decide
theorem witness_CommandFrame :
    exec .getres State.reset =
      .next { State.reset with st := .req, ph := .first, reqOp := .rd8, reqAddr := 0x08, reqWdata := 0x0000 } := rfl
theorem witness_FailedTransaction :
    let s := busy .wait { Inputs.quiet with trRspValid := true, trRspErr := true }
    (sample s).pins.rst = false ∧ s.st = .wait ∧ (sample s).pins.trRspValid = true ∧ (sample s).pins.trRspErr = true := by
  decide
theorem witness_RequestIsHeld :
    (sample (busy .req Inputs.quiet)).pins.trReqReady = false ∧ (sample (busy .req (eager 0))).pins.trReqReady = true ∧
    (sample (busy .req (eager 0))).pins.rst = false ∧ (busy .req Inputs.quiet).st = .req := by decide
theorem witness_ResponseIsHeld :
    (sample (busy .resp Inputs.quiet)).pins.rspReady = false ∧ (sample (busy .resp (eager 0))).pins.rspReady = true ∧
    (sample (busy .resp (eager 0))).pins.rst = false ∧ (busy .resp Inputs.quiet).st = .resp := by decide
theorem witness_NothingAwaited :
    (sample (busy .wait Inputs.quiet)).pins.trRspValid = false ∧ (sample (busy .idle Inputs.quiet)).pins.cmdValid = false ∧
    (sample (busy .wait Inputs.quiet)).pins.rst = false := by decide
theorem witness_StrayAnswers : (busy .req Inputs.quiet).st ≠ .wait := by decide
theorem witness_BusyMachine :
    (busy .req Inputs.quiet).st ≠ .idle ∧
    step (busy .req Inputs.quiet) = .next (sample (busy .req Inputs.quiet)) ∧ Inputs.quiet.rst = false :=
  ⟨by decide, rfl, rfl⟩
theorem witness_ResetAbandons :
    (sample (busy .wait { Inputs.quiet with rst := true })).pins.rst = true := by decide
theorem witness_step_next : step (withInputs Inputs.quiet) = .next (sample (withInputs Inputs.quiet)) := rfl
theorem witness_StepKeepsConsistent : Consistent (busy .req Inputs.quiet) := busy_consistent _ (by decide) _
theorem witness_RequestsStayInTheRegisterMap :
    Consistent (busy .req Inputs.quiet) ∧ (busy .req Inputs.quiet).st = .req := ⟨busy_consistent _ (by decide) _, rfl⟩
theorem witness_ResponsesShowAKnownStatus : Consistent { State.reset with st := .resp, cmd := 0x10080000 } := resp_consistent
theorem witness_TransactionCounts :
    (∀ a ∈ [({ err := false, rdata := 0 } : Answer), { err := false, rdata := 0 }], a.err = false) ∧
    maxTransactions .beginCheck ≤ 2 := by decide
theorem witness_CommandsEnd :
    ((programOf .getres).transact true [{ err := false, rdata := 0x0004 }]).response = some (.reservedCode, 0x0004) ∧
    canEndWith .getres .transportError = true ∧ maxTransactions .getres ≠ 0 ∧ canEndWith .getres .reservedCode = true := by
  decide
/-- A run that meets the hypotheses of the refinement, with a request, its answer and a delivery in it: GETRES reads 0x02
(41_config.md R99). -/
theorem witness_RunsFollowTheTransactionMeaning :
    history 4 { State.reset with
      script := [offerCommand 0x14000000, { Inputs.quiet with trReqReady := true },
        { Inputs.quiet with trRspValid := true, trRspRdata := 0x0002 }, { Inputs.quiet with rspReady := true }] } =
      [.accepted 0x14000000, .issued { op := .rd8, addr := 0x08, wdata := 0x0000 }, .answered { err := false, rdata := 0x0002 },
       .delivered 0 0x0202] := by decide
theorem witness_IdleRegistersAreNeverRead :
    State.reset.st = .idle ∧ ({ State.reset with old := 0xFFFF } : State).st = .idle ∧
    State.reset.script = ({ State.reset with old := 0xFFFF } : State).script := by decide
theorem witness_AtMostOneRequestOutstanding :
    Event.reset ∉ history 2 { State.reset with script := [offerCommand 0x14000000, eager 0] } := by decide
theorem witness_AwaitedInput :
    awaitedInput (sample (busy .req (eager 0))) = true ∧ awaitedInput (sample (busy .req Inputs.quiet)) = false ∧
    Consistent (busy .req (eager 0)) := ⟨by decide, by decide, busy_consistent _ (by decide) _⟩
theorem witness_EagerCommandsEnd :
    [eager (encode .getres), eager 0, eager 0, eager 0].length = 2 * maxTransactions .getres + 2 ∧
    (∀ x ∈ [eager (encode .getres), eager 0, eager 0, eager 0], eagerInputs x = true) ∧
    (eager (encode .getres)).cmdWord = encode .getres := by decide
theorem witness_SetlimThenGetlim : (0x0193 : Half).toInt.natAbs ≤ 4095 ∧ LimitReg.lower ≠ .upper := by decide

end Sys2Proof.Tests
end

section
/-! Runs without a reset against the transaction-level meaning of a command (00_scope.md R12, R14; 10_state.md R22): a busy
machine pursues pseudocode, one edge at a time, and its history follows what that pseudocode means. -/

namespace Sys2Proof.Machine

/-- The request the `REQ_*` registers hold. -/
def heldRequest (s : State) : Request := { op := s.reqOp, addr := s.reqAddr, wdata := s.reqWdata }

/-- The request that is issued and not answered: the held one in state WAIT (10_state.md R40). -/
def outstanding (s : State) : List Request := if s.st = .wait then [heldRequest s] else []

/-- The simulation relation of the refinement: what is left of the busy machine's command is `q`. In REQ and WAIT the
transaction in flight is the first of `q`; in RESP `q` is an end, and the response registers hold its response. -/
def Pursues (q : Program) (s : State) : Prop :=
  match s.st with
  | .idle => False
  | .req | .wait =>
    (programOfWord s.cmd).inFlight s.ph s.old = some q ∧ q.request s.cfg.nativeLE = some (heldRequest s)
  | .resp =>
    ∃ e : Status, s.rspStatus = statusCode e ∧
      ∀ as, q.transact s.cfg.nativeLE as = { requests := [], response := some (e, s.rspData) }

/-- One edge without a reset of a machine that pursues `q`, by the events the edge shows. -/
inductive CommandStep (q : Program) (s t : State) : List Event → Prop
  /-- The awaited input does not come. -/
  | held (hq : Pursues q t) (ho : outstanding t = outstanding s) : CommandStep q s t []
  /-- The transport takes the request. -/
  | issues (r : Request) (hq : Pursues q t) (hs : outstanding s = []) (ht : outstanding t = [r]) :
      CommandStep q s t [.issued r]
  /-- The answer to the outstanding request leaves `rest` of the command. -/
  | answers (a : Answer) (r : Request) (rest : Program) (hq : Pursues rest t) (hs : outstanding s = [r])
      (ht : outstanding t = [])
      (hm : ∀ as, q.transact s.cfg.nativeLE (a :: as) =
        { requests := r :: (rest.transact s.cfg.nativeLE as).requests,
          response := (rest.transact s.cfg.nativeLE as).response }) :
      CommandStep q s t [.answered a]
  /-- The host takes the response. -/
  | delivers (e : Status) (d : Half) (hs : outstanding s = []) (ht : t.st = .idle)
      (hm : ∀ as, q.transact s.cfg.nativeLE as = { requests := [], response := some (e, d) }) :
      CommandStep q s t [.delivered (statusCode e) d]

/-- The requests and the delivered responses of a history are those of the given meaning: what the obligation claims. -/
def Follows (m : Transcript) (requests : List Request) (es : List Event) : Prop :=
  requests <+: m.requests ∧
  ∀ (code : BitVec 3) (d : Half), Event.delivered code d ∈ es →
    requests = m.requests ∧ ∃ e : Status, code = statusCode e ∧ m.response = some (e, d)

/-! ### The simulation relation -/

theorem pursues_busy {q : Program} {s : State} (h : s.st = .req ∨ s.st = .wait) :
    Pursues q s ↔ (programOfWord s.cmd).inFlight s.ph s.old = some q ∧ q.request s.cfg.nativeLE = some (heldRequest s) := by
  obtain h | h := h <;> simp [Pursues, h]

theorem pursues_resp {q : Program} {s : State} (h : s.st = .resp) :
    Pursues q s ↔ ∃ e : Status, s.rspStatus = statusCode e ∧
      ∀ as, q.transact s.cfg.nativeLE as = { requests := [], response := some (e, s.rspData) } := by
  simp [Pursues, h]

theorem Pursues.st_ne_idle {q : Program} {s : State} (h : Pursues q s) : s.st ≠ .idle := by
  intro hs
  simp [Pursues, hs] at h

@[simp] theorem heldRequest_sample (s : State) : heldRequest (sample s) = heldRequest s := by
  simp [heldRequest]

@[simp] theorem outstanding_sample (s : State) : outstanding (sample s) = outstanding s := by
  simp [outstanding]

@[simp] theorem pursues_sample (q : Program) (s : State) : Pursues q (sample s) ↔ Pursues q s := by
  simp [Pursues]

theorem outstanding_of_st_ne_wait {s : State} (h : s.st ≠ .wait) : outstanding s = [] := by
  simp [outstanding, h]

theorem outstanding_wait {s : State} (h : s.st = .wait) : outstanding s = [heldRequest s] := by
  simp [outstanding, h]

theorem outstanding_runToEffect (ph : Phase) (p : Program) (s : State) : outstanding (runToEffect ph p s) = [] := by
  refine outstanding_of_st_ne_wait fun hw => ?_
  obtain ⟨hst, -⟩ | ⟨hst, -⟩ := runToEffect_st ph p s <;> simp [hst] at hw

/-- A raised error is pursued as a `raise`. -/
theorem pursues_raiseError (e : Status) (info : Half) (s : State) : Pursues (.raise e info) (raiseError e info s) :=
  ⟨e, rfl, fun _ => rfl⟩

/-- Pseudocode run to its next effect is pursued from there, if `CMD`, `PH` and `OLD` tell where in the command it stands
when that effect is a transaction. -/
theorem pursues_runToEffect {ph : Phase} {p : Program} {s : State}
    (h : ∀ r, p.request s.cfg.nativeLE = some r → (programOfWord s.cmd).inFlight ph s.old = some p) :
    Pursues p (runToEffect ph p s) := by
  cases hp : p.request s.cfg.nativeLE with
  | some r =>
    rw [runToEffect_request hp, pursues_busy (.inl rfl)]
    exact ⟨h r hp, hp⟩
  | none =>
    obtain ⟨e, info, rfl | ⟨rfl, rfl⟩, heq⟩ := runToEffect_end (ph := ph) hp <;> rw [heq]
    · exact pursues_raiseError e info s
    · exact ⟨.ok, rfl, fun _ => rfl⟩

/-- A write's answer carries nothing the command uses (00_scope.md R11). -/
theorem resume_of_isRead_false {p : Program} (h : p.isRead = false) (u v : Half) : p.resume u = p.resume v := by
  cases p with
  | read8 | read16 => cases h
  | respond | raise | write8 | write16 => rfl

/-- After a good answer `PH` and `OLD` tell where the command stands, if a transaction is left: it is the second one, since
no command has three (10_state.md R21, R40). -/
theorem inFlight_second_of_goodAnswer {w : Word} {q rest : Program} {s : State} {le : Bool} {r : Request}
    (hq : (programOfWord w).inFlight s.ph s.old = some q) (hr : q.resume s.pins.trRspRdata = some rest)
    (hrest : rest.request le = some r) : (programOfWord w).inFlight .second (keepOld q s).old = some rest := by
  rw [inFlight_second]
  cases hp : s.ph with
  | first =>
    rw [hp, inFlight_first, Option.some.injEq] at hq
    subst hq
    cases hread : (programOfWord w).isRead with
    | true => simp [hp, hread, resume_readValue, hr]
    | false => simpa [hread] using (resume_of_isRead_false hread _ _).trans hr
  | second =>
    rw [hp, inFlight_second] at hq
    rw [programOfWord_thirdEffect_end w _ _ q rest hq hr le] at hrest
    cases hrest

/-! ### One edge -/

/-- State REQ: the request is held or issued. -/
theorem commandStep_req {q : Program} {s : State} (h : Pursues q s) (hs : s.st = .req)
    (hr : (sample s).pins.rst = false) : ∃ t, step s = .next t ∧ t.cfg = s.cfg ∧ CommandStep q s t (edgeEvents (sample s)) := by
  refine ⟨requestEdge (sample s), by simp [step_eq, hr, hs], by simp, ?_⟩
  have hos : outstanding s = [] := outstanding_of_st_ne_wait (by simp [hs])
  cases hready : (sample s).pins.trReqReady with
  | false =>
    simp only [edgeEvents, requestEdge, hr, hs, hready, sample_st]
    exact .held ((pursues_sample q s).mpr h) (outstanding_sample s)
  | true =>
    simp only [edgeEvents, requestEdge, hr, hs, hready, sample_st]
    refine .issues (heldRequest (sample s)) ?_ hos (outstanding_wait rfl)
    rw [← pursues_sample, pursues_busy (.inl (by simp [hs]))] at h
    exact h

/-- State WAIT: the answer does not come, ends the command, or goes on with it. -/
theorem commandStep_wait {q : Program} {s : State} (h : Pursues q s) (hs : s.st = .wait)
    (hr : (sample s).pins.rst = false) : ∃ t, step s = .next t ∧ t.cfg = s.cfg ∧ CommandStep q s t (edgeEvents (sample s)) := by
  have hstep : step s = answerEdge (programOfWord s.cmd) (sample s) := by simp [step_eq, hr, hs]
  have hos : outstanding s = [heldRequest s] := outstanding_wait hs
  obtain ⟨hq, hreq⟩ := (pursues_busy (.inr hs)).mp h
  simp only [hstep, edgeEvents, hr, hs, sample_st]
  cases hv : (sample s).pins.trRspValid with
  | false =>
    exact ⟨sample s, answerEdge_none hv, by simp, .held ((pursues_sample q s).mpr h) (outstanding_sample s)⟩
  | true =>
    cases he : (sample s).pins.trRspErr with
    | true =>
      exact ⟨_, answerEdge_error hv he, by simp, .answers _ _ (.raise .transportError 0x0000) (pursues_raiseError _ _ _) hos
        (outstanding_of_st_ne_wait (by simp)) fun as => transact_error as hreq rfl⟩
    | false =>
      obtain ⟨rest, hrest⟩ : ∃ rest, q.resume (sample s).pins.trRspRdata = some rest := by
        rw [← Option.isSome_iff_exists, ← request_isSome_iff_resume q s.cfg.nativeLE, hreq]
        rfl
      refine ⟨_, answerEdge_good hv he (by simpa using hq) hrest, by simp, .answers _ _ rest (pursues_runToEffect ?_) hos
        (outstanding_runToEffect _ _ _) fun as => transact_good as hreq rfl hrest⟩
      intro r hnext
      rw [keepOld_cmd, sample_cmd]
      exact inFlight_second_of_goodAnswer (by simpa using hq) hrest hnext

/-- State RESP: the response is held or delivered. -/
theorem commandStep_resp {q : Program} {s : State} (h : Pursues q s) (hs : s.st = .resp)
    (hr : (sample s).pins.rst = false) : ∃ t, step s = .next t ∧ t.cfg = s.cfg ∧ CommandStep q s t (edgeEvents (sample s)) := by
  refine ⟨deliverEdge (sample s), by simp [step_eq, hr, hs], by simp, ?_⟩
  have hos : outstanding s = [] := outstanding_of_st_ne_wait (by simp [hs])
  cases hready : (sample s).pins.rspReady with
  | false =>
    simp only [edgeEvents, deliverEdge, hr, hs, hready, sample_st]
    exact .held ((pursues_sample q s).mpr h) (outstanding_sample s)
  | true =>
    obtain ⟨e, hstatus, hm⟩ := (pursues_resp hs).mp h
    simp only [edgeEvents, deliverEdge, hr, hs, hready, sample_st, sample_rspStatus, sample_rspData, hstatus]
    exact .delivers e s.rspData hos rfl hm

/-- A busy machine's edge without a reset goes on with its command. -/
theorem commandStep_of_pursues {q : Program} {s : State} (h : Pursues q s) (hr : (sample s).pins.rst = false) :
    ∃ t, step s = .next t ∧ t.cfg = s.cfg ∧ CommandStep q s t (edgeEvents (sample s)) := by
  cases hs : s.st with
  | idle => exact absurd hs h.st_ne_idle
  | req => exact commandStep_req h hs hr
  | wait => exact commandStep_wait h hs hr
  | resp => exact commandStep_resp h hs hr

/-! ### Histories -/

theorem history_succ {k : Nat} {s t : State} (h : step s = .next t) :
    history (k + 1) s = edgeEvents (sample s) ++ history k t := by
  simp [history, h]

/-- A reset edge is seen. -/
theorem rst_of_noBoundary {k : Nat} {s : State} (h : ∀ e ∈ history (k + 1) s, e.isBoundary = false) :
    (sample s).pins.rst = false := by
  cases hr : (sample s).pins.rst with
  | false => rfl
  | true =>
    have hreset := h .reset (by simp [history, edgeEvents, hr])
    cases hreset

/-- From IDLE nothing happens before the next boundary. -/
theorem history_idle_of_noBoundary {k : Nat} {s : State} (hs : s.st = .idle)
    (h : ∀ e ∈ history k s, e.isBoundary = false) : history k s = [] := by
  induction k generalizing s with
  | zero => rfl
  | succ k ih =>
    have hr := rst_of_noBoundary h
    cases hv : (sample s).pins.cmdValid with
    | true => simp [history, edgeEvents, hr, hs, hv, Event.isBoundary] at h
    | false =>
      have hhist : history (k + 1) s = history k (sample s) := by
        rw [history_succ (t := sample s) (by simp [step_eq, hr, hs, hv])]
        simp [edgeEvents, hr, hs, hv]
      rw [hhist] at h ⊢
      exact ih (by simp [hs]) h

/-- A history from IDLE that begins with an acceptance goes on from a machine that pursues the accepted word's pseudocode,
with nothing outstanding. -/
theorem history_accepted {k : Nat} {s : State} {w : Word} {es : List Event} (hs : s.st = .idle)
    (h : history k s = .accepted w :: es) :
    ∃ (j : Nat) (t : State), es = history j t ∧ t.cfg = s.cfg ∧ outstanding t = [] ∧ Pursues (programOfWord w) t := by
  induction k generalizing s with
  | zero => simp [history] at h
  | succ k ih =>
    cases hr : (sample s).pins.rst with
    | true => simp [history, edgeEvents, hr] at h
    | false =>
      cases hv : (sample s).pins.cmdValid with
      | false =>
        rw [history_succ (t := sample s) (by simp [step_eq, hr, hs, hv])] at h
        simpa using ih (s := sample s) (by simp [hs]) (by simpa [edgeEvents, hr, hs, hv] using h)
      | true =>
        rw [history_succ (by simp only [step_eq, hr, hs, hv]; rfl)] at h
        simp only [edgeEvents, hr, hs, hv, sample_st] at h
        obtain ⟨hw, hes⟩ := List.cons.inj h
        cases hw
        exact ⟨k, _, hes.symm, by simp, outstanding_runToEffect _ _ _, pursues_runToEffect fun _ _ => by simp [inFlight_first]⟩

/-! ### Following the meaning -/

/-- Before any event: what is outstanding is the first request of what is left. -/
theorem Pursues.follows_nil {q : Program} {s : State} (h : Pursues q s) :
    Follows (q.transact s.cfg.nativeLE []) (outstanding s) [] := by
  refine ⟨?_, by simp⟩
  by_cases hs : s.st = .wait
  · obtain ⟨-, hreq⟩ := (pursues_busy (.inr hs)).mp h
    rw [outstanding_wait hs, transact_nil hreq]
  · rw [outstanding_of_st_ne_wait hs]
    exact List.nil_prefix

/-- An answer puts the request it answers in front. -/
theorem Follows.answered {m : Transcript} {rs : List Request} {es : List Event} (h : Follows m rs es) (r : Request)
    (a : Answer) : Follows { requests := r :: m.requests, response := m.response } (r :: rs) (.answered a :: es) := by
  obtain ⟨hpre, hdel⟩ := h
  refine ⟨List.cons_prefix_cons.mpr ⟨rfl, hpre⟩, fun code d hmem => ?_⟩
  obtain ⟨hrs, hresp⟩ := hdel code d (by simpa using hmem)
  exact ⟨by rw [hrs], hresp⟩

/-- The history of a busy machine follows the meaning of what is left of its command. -/
theorem Pursues.follows_history {q : Program} {s : State} (h : Pursues q s) (k : Nat)
    (hb : ∀ e ∈ history k s, e.isBoundary = false) :
    Follows (q.transact s.cfg.nativeLE (answersIn (history k s))) (outstanding s ++ requestsIn (history k s))
      (history k s) := by
  induction k generalizing q s with
  | zero => simpa [history, answersIn, requestsIn] using h.follows_nil
  | succ k ih =>
    obtain ⟨t, hstep, hcfg, hedge⟩ := commandStep_of_pursues h (rst_of_noBoundary hb)
    rw [history_succ hstep] at hb ⊢
    have hbt : ∀ e ∈ history k t, e.isBoundary = false := fun e he => hb e (List.mem_append_right _ he)
    rw [← hcfg]
    generalize edgeEvents (sample s) = ev at hedge
    cases hedge with
    | held hq ho => simpa [ho] using ih hq hbt
    | issues r hq hs ht => simpa [hs, ht, Follows, answersIn, requestsIn] using ih hq hbt
    | answers a r rest hq hs ht hm =>
      have hfollows := (ih hq hbt).answered r a
      rw [ht, hcfg, List.nil_append, ← hm] at hfollows
      simpa [hs, hcfg, answersIn, requestsIn] using hfollows
    | delivers e d hs ht hm =>
      rw [history_idle_of_noBoundary ht hbt, hcfg, hm, hs]
      simp [Follows, requestsIn]

/-- Settles O49: the run from the acceptance on is simulated by the command's pseudocode. -/
theorem runsFollowTheTransactionMeaning : Obligations.RunsFollowTheTransactionMeaning := by
  unfold Obligations.RunsFollowTheTransactionMeaning
  intro k s w es hs hist hb
  obtain ⟨j, t, rfl, hcfg, hout, hpursues⟩ := history_accepted hs hist
  have hfollows := hpursues.follows_history j hb
  rwa [hout, List.nil_append, hcfg] at hfollows

end Sys2Proof.Machine
end

section
/-! The simulation of the sequencer (10_state.md R22) by its control: its state `ST` with what is left of the command. The
control says where every edge goes from the inputs alone, so the invariant of a run and what a run shows follow from it. -/

namespace Sys2Proof.Machine

/-! ### What each command's pseudocode can do -/

/-- Whether pseudocode is at an end: a `respond` or a `raise` (00_scope.md R11). -/
def Program.isEnd : Program → Bool
  | .respond _ | .raise _ _ => true
  | .read8 _ _ | .read16 _ _ | .write8 _ _ _ | .write16 _ _ _ => false

/-- Pseudocode ends only with the given statuses and with datum 0 at every error but ReservedCode (30_encoding.md R70), and
asks only for the register map (10_state.md R27); where it asks, TransportError is among the statuses (60_exceptions.md
R115). -/
def Program.Lawful (can : Status → Bool) : Program → Prop
  | .respond _ => can .ok = true
  | .raise e info => can e = true ∧ (e ≠ .ok → e ≠ .reservedCode → info = 0)
  | .read8 addr rest =>
    (ReqOp.rd8, addr) ∈ registerMap ∧ can .transportError = true ∧ ∀ b, (rest b).Lawful can
  | .read16 addr rest =>
    (ReqOp.rd16, addr) ∈ registerMap ∧ can .transportError = true ∧ ∀ v, (rest v).Lawful can
  | .write8 addr _ rest => (ReqOp.wr8, addr) ∈ registerMap ∧ can .transportError = true ∧ rest.Lawful can
  | .write16 addr _ rest => (ReqOp.wr16, addr) ∈ registerMap ∧ can .transportError = true ∧ rest.Lawful can

theorem Program.Lawful.request {can : Status → Bool} {p : Program} {le : Bool} {r : Request} (h : p.Lawful can)
    (hr : p.request le = some r) : (r.op, r.addr) ∈ registerMap ∧ can .transportError = true := by
  cases p <;> cases hr <;> exact ⟨h.1, h.2.1⟩

theorem Program.Lawful.resume {can : Status → Bool} {p q : Program} {v : Half} (h : p.Lawful can)
    (hq : p.resume v = some q) : q.Lawful can := by
  cases p with
  | respond | raise => cases hq
  | read8 | read16 => cases hq; exact h.2.2 _
  | write8 | write16 => cases hq; exact h.2.2

theorem Program.Lawful.inFlight {can : Status → Bool} {p q : Program} {ph : Phase} {v : Half} (h : p.Lawful can)
    (hq : p.inFlight ph v = some q) : q.Lawful can := by
  cases ph with
  | first => cases hq; exact h
  | second => exact h.resume hq

/-- Every command's pseudocode keeps to the register map and to its row of 60_exceptions.md R117. -/
theorem programOf_lawful (i : Instr) : (programOf i).Lawful (canEndWith i) := by
  cases i
  case deca | dect | encA | encT => rfl
  case sethyst t =>
    simp only [programOf, programSethyst]
    split
    · exact ⟨rfl, fun _ _ => rfl⟩
    · exact ⟨by decide, rfl, fun _ => ⟨by decide, rfl, rfl⟩⟩
  case setres t =>
    simp only [programOf, programSetres]
    split
    · exact ⟨rfl, fun _ _ => rfl⟩
    · exact ⟨by decide, rfl, rfl⟩
  case getres =>
    refine ⟨by decide, rfl, fun b => ?_⟩
    dsimp only
    split
    · exact ⟨rfl, fun _ h => absurd rfl h⟩
    · rfl
  case setlimUpper | setlimLower | setlimCrit => exact ⟨by decide, rfl, rfl⟩
  case islock | getlimUpper | getlimLower | getlimCrit | getamb | getalert => exact ⟨by decide, rfl, fun _ => rfl⟩
  case beginCheck => exact ⟨by decide, rfl, fun _ => ⟨by decide, rfl, fun _ => rfl⟩⟩
  all_goals exact ⟨by decide, rfl, fun _ => ⟨by decide, rfl, rfl⟩⟩

theorem programOfWord_of_decode {w : Word} {i : Instr} (h : decode w = .ok i) : programOfWord w = programOf i := by
  simp [programOfWord, h]

/-- An illegal word's pseudocode ends with IllegalCommand only (30_encoding.md R67). -/
theorem programOfWord_lawful (w : Word) : (programOfWord w).Lawful (wordCanEndWith w) := by
  unfold programOfWord wordCanEndWith
  split
  · exact programOf_lawful _
  · exact ⟨rfl, fun _ _ => rfl⟩

/-! ### The control -/

/-- The sequencer's state, and what is left of its command. -/
structure Control where
  st   : SeqState
  left : Program

/-- Where pseudocode runs to: RESP at an end, REQ at a primitive (10_state.md R22). -/
def controlAt (p : Program) : Control := { st := if p.isEnd then .resp else .req, left := p }

/-- What an answer leaves of a command (10_state.md R22, 60_exceptions.md R115). -/
def afterAnswer (x : Inputs) (q : Program) : Program :=
  if x.trRspErr then .raise .transportError 0x0000 else (q.resume x.trRspRdata).getD q

/-- The control after an edge with the given inputs (10_state.md R22, R36). -/
def Control.next (x : Inputs) (m : Control) : Control :=
  if x.rst then { m with st := .idle }
  else
    match m.st with
    | .idle => if x.cmdValid then controlAt (programOfWord x.cmdWord) else m
    | .req => if x.trReqReady then { m with st := .wait } else m
    | .wait => if x.trRspValid then controlAt (afterAnswer x m.left) else m
    | .resp => if x.rspReady then { m with st := .idle } else m

/-- The machine has the given control: a busy one pursues what is left of its command, which is lawful for the latched
word. -/
def Control.Describes (m : Control) (s : State) : Prop :=
  s.st = m.st ∧ (m.st ≠ .idle → Pursues m.left s ∧ m.left.Lawful (wordCanEndWith s.cmd))

theorem Control.Describes.of_idle {m : Control} {s : State} (hs : s.st = .idle) (hm : m.st = .idle) : m.Describes s :=
  ⟨hs.trans hm.symm, fun h => absurd hm h⟩

theorem Control.describes_sample {m : Control} {s : State} : m.Describes (sample s) ↔ m.Describes s := by
  simp [Control.Describes]

/-- An end is a `raise`, or a `respond`, which is a good end. -/
theorem Program.Lawful.end_status {can : Status → Bool} {q : Program} {le : Bool} {e : Status} {d : Half}
    (h : q.Lawful can) (hm : q.transact le [] = { requests := [], response := some (e, d) }) :
    can e = true ∧ (e ≠ .ok → e ≠ .reservedCode → d = 0) := by
  cases q with
  | respond v => cases hm; exact ⟨h, fun hok => absurd rfl hok⟩
  | raise e info => cases hm; exact h
  | read8 | read16 | write8 | write16 => simp [Program.transact] at hm

/-- The response registers of a machine whose control is in RESP are those of an end. -/
theorem pursues_raise_of_resp {s : State} {e : Status} (hs : s.st = .resp) (he : s.rspStatus = statusCode e) :
    Pursues (.raise e s.rspData) s :=
  (pursues_resp hs).mpr ⟨e, he, fun _ => rfl⟩

/-- The invariant of every run is that the machine has a control. -/
theorem consistent_iff_control (s : State) : Consistent s ↔ ∃ m : Control, m.Describes s := by
  constructor
  · rintro ⟨hreq, hresp⟩
    have hbusy (hb : s.st = .req ∨ s.st = .wait) : ∃ m : Control, m.Describes s := by
      obtain ⟨q, hq, hr⟩ := Option.bind_eq_some_iff.mp (hreq hb)
      exact ⟨⟨s.st, q⟩, rfl, fun _ => ⟨(pursues_busy hb).mpr ⟨hq, hr⟩, (programOfWord_lawful s.cmd).inFlight hq⟩⟩
    cases hs : s.st with
    | idle => exact ⟨⟨.idle, illegalProgram⟩, .of_idle hs rfl⟩
    | req => exact hbusy (.inl hs)
    | wait => exact hbusy (.inr hs)
    | resp =>
      obtain ⟨e, he, hcan, hdatum⟩ := hresp hs
      exact ⟨⟨.resp, .raise e s.rspData⟩, hs, fun _ => ⟨pursues_raise_of_resp hs he, hcan, hdatum⟩⟩
  · rintro ⟨m, hst, hm⟩
    constructor
    · intro hb
      obtain ⟨hq, hr⟩ := (pursues_busy hb).mp (hm fun hidle => by simp [hst, hidle] at hb).1
      exact Option.bind_eq_some_iff.mpr ⟨m.left, hq, hr⟩
    · intro hs
      obtain ⟨hq, hlaw⟩ := hm (by rw [← hst, hs]; decide)
      obtain ⟨e, he, hmean⟩ := (pursues_resp hs).mp hq
      exact ⟨e, he, hlaw.end_status (hmean [])⟩

/-- Pseudocode run to its next effect, if `CMD`, `PH` and `OLD` tell where in the command it stands. -/
theorem controlAt_of_runToEffect {ph : Phase} {p : Program} {s : State} (hlaw : p.Lawful (wordCanEndWith s.cmd))
    (hin : ∀ r, p.request s.cfg.nativeLE = some r → (programOfWord s.cmd).inFlight ph s.old = some p) :
    (controlAt p).Describes (runToEffect ph p s) := by
  refine ⟨?_, fun _ => ⟨pursues_runToEffect hin, by rwa [runToEffect_cmd]⟩⟩
  cases p <;> rfl

/-- The transport's taking of a request leaves what the machine pursues. -/
theorem Pursues.issued {q : Program} {s : State} (h : Pursues q s) (hs : s.st = .req) :
    Pursues q { s with st := .wait } :=
  (pursues_busy (.inr rfl)).mpr ((pursues_busy (.inl hs)).mp h)

/-- A busy machine's pseudocode at a transaction can be resumed. -/
theorem Pursues.resume {q : Program} {s : State} (h : Pursues q s) (hs : s.st = .req ∨ s.st = .wait) (v : Half) :
    ∃ rest, q.resume v = some rest := by
  obtain ⟨-, hr⟩ := (pursues_busy hs).mp h
  rw [← Option.isSome_iff_exists, ← request_isSome_iff_resume q s.cfg.nativeLE, hr]
  rfl

/-- State WAIT: the answer. -/
theorem answerEdge_control {q : Program} {s : State} (h : Control.Describes ⟨.wait, q⟩ s) (hr : s.pins.rst = false) :
    ∃ t, answerEdge (programOfWord s.cmd) s = .next t ∧ (Control.next s.pins ⟨.wait, q⟩).Describes t := by
  obtain ⟨hs, hm⟩ := h
  obtain ⟨hq, hlaw⟩ := hm nofun
  obtain ⟨hin, hreq⟩ := (pursues_busy (.inr hs)).mp hq
  cases hv : s.pins.trRspValid with
  | false => exact ⟨s, answerEdge_none hv, by simpa [Control.next, hr, hv] using ⟨hs, hm⟩⟩
  | true =>
    simp only [Control.next, afterAnswer, hr, hv]
    cases he : s.pins.trRspErr with
    | true =>
      exact ⟨_, answerEdge_error hv he, rfl, fun _ => ⟨pursues_raiseError _ _ _, (hlaw.request hreq).2, fun _ _ => rfl⟩⟩
    | false =>
      obtain ⟨rest, hrest⟩ := hq.resume (.inr hs) s.pins.trRspRdata
      refine ⟨_, answerEdge_good hv he hin hrest, ?_⟩
      simp only [hrest]
      refine controlAt_of_runToEffect (by simpa using hlaw.resume hrest) fun r hnext => ?_
      simpa using inFlight_second_of_goodAnswer hin hrest hnext

/-- The simulation: every edge of a machine with a control goes on, and takes the control where the inputs say. -/
theorem step_control {m : Control} {s : State} (h : m.Describes s) :
    ∃ t, step s = .next t ∧ (m.next (sample s).pins).Describes t := by
  rw [step_eq]
  cases hr : (sample s).pins.rst with
  | true => exact ⟨_, rfl, .of_idle rfl (by simp [Control.next, hr])⟩
  | false =>
    obtain ⟨st, q⟩ := m
    have hsample := Control.describes_sample.mpr h
    obtain ⟨hs, hm⟩ := h
    cases st with
    | idle =>
      cases hv : (sample s).pins.cmdValid with
      | false => exact ⟨sample s, by simp [hs], by simpa [Control.next, hr, hv] using hsample⟩
      | true =>
        refine ⟨_, by simp only [hs]; rfl, ?_⟩
        simp only [Control.next, hr, hv]
        exact controlAt_of_runToEffect (programOfWord_lawful _) fun _ _ => rfl
    | req =>
      refine ⟨_, by simp only [hs]; rfl, ?_⟩
      obtain ⟨hq, hlaw⟩ := hm nofun
      cases hv : (sample s).pins.trReqReady with
      | false => simpa [Control.next, requestEdge, hr, hv] using hsample
      | true =>
        simp only [Control.next, requestEdge, hr, hv]
        exact ⟨rfl, fun _ => ⟨((pursues_sample q s).mpr hq).issued ((sample_st s).trans hs), by simpa using hlaw⟩⟩
    | wait =>
      obtain ⟨t, ht, hnext⟩ := answerEdge_control hsample hr
      exact ⟨t, by simpa [hs] using ht, hnext⟩
    | resp =>
      refine ⟨_, by simp only [hs]; rfl, ?_⟩
      cases hv : (sample s).pins.rspReady with
      | false => simpa [Control.next, deliverEdge, hr, hv] using hsample
      | true => exact .of_idle (by simp [hv]) (by simp [Control.next, hr, hv])

/-- Settles O43: a consistent machine is one with a control, and every edge gives the control after it. -/
theorem stepKeepsConsistent : Obligations.StepKeepsConsistent := by
  unfold Obligations.StepKeepsConsistent
  intro s t hs hstep
  obtain ⟨m, hm⟩ := (consistent_iff_control s).mp hs
  obtain ⟨t', hstep', ht⟩ := step_control hm
  cases hstep.symm.trans hstep'
  exact (consistent_iff_control t).mpr ⟨_, ht⟩

end Sys2Proof.Machine
end

section
/-! One edge: what every command leaves alone (10_state.md R21), what each state of the sequencer holds until its input comes
(10_state.md R22, R24, R26), what it does not look at (10_state.md R23, R25), and reset (10_state.md R36). -/

namespace Sys2Proof.Machine

/-! ### Frames -/

/-- The request registers and `PH` change only where pseudocode runs to a request. -/
theorem runToEffect_keeps_request {ph : Phase} {p : Program} {s : State} (h : (runToEffect ph p s).st ≠ .req) :
    (runToEffect ph p s).ph = s.ph ∧ heldRequest (runToEffect ph p s) = heldRequest s := by
  cases p with
  | respond | raise => exact ⟨rfl, rfl⟩
  | read8 | read16 | write8 | write16 => exact absurd rfl h

/-- The response registers change only where pseudocode runs to an end. -/
theorem runToEffect_keeps_response {ph : Phase} {p : Program} {s : State} (h : (runToEffect ph p s).st ≠ .resp) :
    (runToEffect ph p s).rspStatus = s.rspStatus ∧ (runToEffect ph p s).rspData = s.rspData := by
  cases p with
  | respond | raise => exact absurd rfl h
  | read8 | read16 | write8 | write16 => exact ⟨rfl, rfl⟩

/-- What a command leaves alone at an edge with the pseudocode `p`: the conclusion of the frame statement. -/
def Framed (p : Program) (s t : State) : Prop :=
  t.cfg = s.cfg ∧ t.cmd = s.cmd ∧ t.pins = s.pins ∧ t.script = s.script ∧ t.edges = s.edges ∧
  (¬ (AtFirstAnswer s ∧ p.isRead = true) → t.old = s.old) ∧
  (t.st ≠ .req ∨ s.st = .req →
    t.ph = s.ph ∧ t.reqOp = s.reqOp ∧ t.reqAddr = s.reqAddr ∧ t.reqWdata = s.reqWdata) ∧
  (t.st ≠ .resp ∨ s.st = .resp → t.rspStatus = s.rspStatus ∧ t.rspData = s.rspData)

/-- Pseudocode run to its next effect, after an update of `OLD` at most. -/
theorem framed_runToEffect {p q : Program} {ph : Phase} {s s' : State} (hs : s' = { s with old := s'.old })
    (hold : ¬ (AtFirstAnswer s ∧ p.isRead = true) → s'.old = s.old) (hreq : s.st ≠ .req) (hresp : s.st ≠ .resp) :
    Framed p s (runToEffect ph q s') := by
  rw [hs]
  refine ⟨by simp, by simp, by simp, by simp, by simp, by simpa using hold, fun h => ?_, fun h => ?_⟩
  · obtain ⟨hph, hheld⟩ := runToEffect_keeps_request (h.resolve_right hreq)
    simpa [heldRequest] using And.intro hph hheld
  · exact runToEffect_keeps_response (h.resolve_right hresp)

/-- Settles O32, by the sequencer's state and, in WAIT, by what the edge brings. -/
theorem commandFrame : Obligations.CommandFrame := by
  unfold Obligations.CommandFrame
  intro i s t h
  show Framed (programOf i) s t
  rw [exec_eq_commandEdge] at h
  cases hs : s.st with
  | idle =>
    rw [commandEdge_idle hs] at h
    cases h
    exact framed_runToEffect rfl (fun _ => rfl) (by simp [hs]) (by simp [hs])
  | req =>
    rw [commandEdge_req hs] at h
    cases h
    simp [Framed]
  | resp =>
    rw [commandEdge_resp hs] at h
    cases h
    simp [Framed]
  | wait =>
    rw [commandEdge_wait hs] at h
    obtain ⟨-, rfl⟩ | ⟨-, -, rfl⟩ | ⟨hv, he, q, rest, hq, -, rfl⟩ := answerEdge_next h
    · simp [Framed]
    · simp [Framed, hs]
    · refine framed_runToEffect ?_ (fun hn => ?_) (by simp [hs]) (by simp [hs])
      · unfold keepOld; split <;> rfl
      · rw [keepOld_old, if_neg]
        rintro ⟨hph, hread⟩
        rw [hph] at hq
        cases hq
        exact hn ⟨⟨hs, hph, hv, he⟩, hread⟩

/-- The parameter, the samples and their counter after a step: no command touches them. -/
theorem step_environment {s t : State} (h : step s = .next t) :
    t.cfg = s.cfg ∧ t.script = (sample s).script ∧ t.edges = s.edges + 1 := by
  obtain ⟨-, rfl⟩ | ⟨-, ⟨-, -, rfl⟩ | ⟨-, -, rfl⟩ | ⟨-, rfl⟩ | ⟨-, h⟩ | ⟨-, rfl⟩⟩ := step_next_cases h
  case inr.inr.inr.inr.inl =>
    obtain ⟨-, rfl⟩ | ⟨-, -, rfl⟩ | ⟨-, -, q, rest, -, -, rfl⟩ := answerEdge_next h <;> simp
  all_goals simp

/-- Settles O41: the parameter is part of what no step touches. -/
theorem parameterNeverChanges : Obligations.ParameterNeverChanges := by
  unfold Obligations.ParameterNeverChanges
  intro s t h
  exact (step_environment h).1

/-! ### Holding -/

/-- In REQ the port shows the request registers (10_state.md R21). -/
theorem outputs_req {s : State} (hs : s.st = .req) :
    (outputs s).trReqValid = true ∧ (outputs s).trReqOp = reqOpCode s.reqOp ∧ (outputs s).trReqAddr = s.reqAddr ∧
    (outputs s).trReqWdata = s.reqWdata := by
  simp [outputs, hs]

/-- In RESP the port shows the response registers (10_state.md R21). -/
theorem outputs_resp {s : State} (hs : s.st = .resp) :
    (outputs s).rspValid = true ∧ (outputs s).rspStatus = s.rspStatus ∧ (outputs s).rspData = s.rspData := by
  simp [outputs, hs]

/-- Without the awaited input an edge keeps every register (10_state.md R22, R24, R26; 70_reset_and_hazards.md R137). -/
theorem step_of_not_awaited {s : State} (hr : (sample s).pins.rst = false) (ha : awaitedInput (sample s) = false) :
    step s = .next (sample s) := by
  rw [step_eq]
  cases hs : s.st <;> simp only [awaitedInput, sample_st, hs] at ha
  case idle => simp [hr, ha]
  case req => simp [hr, requestEdge, ha]
  case wait => simp [hr, answerEdge, ha]
  case resp => simp [hr, deliverEdge, ha]

/-- Settles O34: the edge in REQ is `requestEdge`, and without `tr_req_ready` it is one that brings nothing awaited. -/
theorem requestIsHeldUntilIssued : Obligations.RequestIsHeldUntilIssued := by
  unfold Obligations.RequestIsHeldUntilIssued
  intro s hr hs
  obtain ⟨hvalid, hop, haddr, hwdata⟩ := outputs_req hs
  refine ⟨hvalid, hop, haddr, hwdata, fun hv => ?_, fun hv => ?_⟩
  · exact step_of_not_awaited hr (by simpa [awaitedInput, hs] using hv)
  · simp [step_eq, hr, hs, requestEdge, hv]

/-- Settles O35: the edge in RESP is `deliverEdge`, and without `rsp_ready` it is one that brings nothing awaited. -/
theorem responseIsHeldUntilDelivered : Obligations.ResponseIsHeldUntilDelivered := by
  unfold Obligations.ResponseIsHeldUntilDelivered
  intro s hr hs
  obtain ⟨hvalid, hstatus, hdata⟩ := outputs_resp hs
  refine ⟨hvalid, hstatus, hdata, fun hv => ?_, fun hv => ?_⟩
  · exact step_of_not_awaited hr (by simpa [awaitedInput, hs] using hv)
  · simp [step_eq, hr, hs, deliverEdge, hv]

/-- Settles O36: an answer in WAIT and a command in IDLE are the awaited inputs there. -/
theorem nothingAwaitedNothingHappens : Obligations.NothingAwaitedNothingHappens := by
  unfold Obligations.NothingAwaitedNothingHappens
  intro s hr
  exact ⟨fun hs hv => step_of_not_awaited hr (by simpa [awaitedInput, hs] using hv),
    fun hs hv => step_of_not_awaited hr (by simpa [awaitedInput, hs] using hv)⟩

/-! ### What an edge does not look at -/

/-- The inputs the sequencer looks at in a state: reset, and the awaited port's (10_state.md R22). -/
def looksAt (st : SeqState) (x : Inputs) : Inputs :=
  match st with
  | .idle => { Inputs.quiet with rst := x.rst, cmdValid := x.cmdValid, cmdWord := x.cmdWord }
  | .req => { Inputs.quiet with rst := x.rst, trReqReady := x.trReqReady }
  | .wait =>
    { Inputs.quiet with rst := x.rst, trRspValid := x.trRspValid, trRspErr := x.trRspErr, trRspRdata := x.trRspRdata }
  | .resp => { Inputs.quiet with rst := x.rst, rspReady := x.rspReady }

theorem looksAt_rst (st : SeqState) (x : Inputs) : (looksAt st x).rst = x.rst := by
  cases st <;> rfl

/-- The machine with other input signals recorded. -/
def State.withPins (x : Inputs) (s : State) : State := { s with pins := x }

@[simp] theorem withPins_pins (x : Inputs) (s : State) : (s.withPins x).pins = x := rfl
@[simp] theorem withPins_st (x : Inputs) (s : State) : (s.withPins x).st = s.st := rfl
@[simp] theorem withPins_cmd (x : Inputs) (s : State) : (s.withPins x).cmd = s.cmd := rfl

theorem runToEffect_withPins (ph : Phase) (p : Program) (s : State) (x : Inputs) :
    runToEffect ph p (s.withPins x) = (runToEffect ph p s).withPins x := by
  cases p <;> rfl

theorem accept_withPins (w : Word) (s : State) (x : Inputs) : accept w (s.withPins x) = (accept w s).withPins x := rfl

theorem keepOld_withPins {q : Program} {s : State} {x : Inputs} (h : s.pins.trRspRdata = x.trRspRdata) :
    keepOld q (s.withPins x) = (keepOld q s).withPins x := by
  by_cases hc : s.ph = .first ∧ q.isRead = true <;> simp [keepOld, State.withPins, h, hc]

theorem requestEdge_withPins {s : State} {x : Inputs} (h : s.pins.trReqReady = x.trReqReady) :
    requestEdge (s.withPins x) = (requestEdge s).withPins x := by
  cases hx : x.trReqReady <;> simp [requestEdge, h, hx, State.withPins]

theorem deliverEdge_withPins {s : State} {x : Inputs} (h : s.pins.rspReady = x.rspReady) :
    deliverEdge (s.withPins x) = (deliverEdge s).withPins x := by
  cases hx : x.rspReady <;> simp [deliverEdge, h, hx, State.withPins]

theorem answerEdge_withPins {p : Program} {s t : State} {x : Inputs} (hx : looksAt .wait s.pins = looksAt .wait x)
    (h : answerEdge p s = .next t) : answerEdge p (s.withPins x) = .next (t.withPins x) := by
  simp only [looksAt, Inputs.mk.injEq, true_and] at hx
  obtain ⟨-, hvx, hex, hdx⟩ := hx
  obtain ⟨hv, rfl⟩ | ⟨hv, he, rfl⟩ | ⟨hv, he, q, rest, hq, hr, rfl⟩ := answerEdge_next h
  · exact answerEdge_none (hvx ▸ hv)
  · exact answerEdge_error (hvx ▸ hv) (hex ▸ he)
  · rw [← runToEffect_withPins, ← keepOld_withPins hdx]
    exact answerEdge_good (hvx ▸ hv) (hex ▸ he) hq (hdx ▸ hr)

/-- The inputs that an edge does not look at are recorded and have no effect. -/
theorem step_withPins {s s' t : State} {x : Inputs} (hs' : sample s' = (sample s).withPins x)
    (hx : looksAt s.st (sample s).pins = looksAt s.st x) (h : step s = .next t) : step s' = .next (t.withPins x) := by
  have hst : s'.st = s.st := by simpa using congrArg State.st hs'
  have hcmd : s'.cmd = s.cmd := by simpa using congrArg State.cmd hs'
  have hrst : (sample s).pins.rst = x.rst := by simpa only [looksAt_rst] using congrArg Inputs.rst hx
  rw [step_eq, hs', hst, hcmd, withPins_pins]
  obtain ⟨hr, rfl⟩ | ⟨hr, hcases⟩ := step_next_cases h
  · simp only [← hrst, hr]
    rfl
  simp only [← hrst, hr]
  obtain ⟨hs, hv, rfl⟩ | ⟨hs, hv, rfl⟩ | ⟨hs, rfl⟩ | ⟨hs, ha⟩ | ⟨hs, rfl⟩ := hcases <;> rw [hs] at hx
  · have hvx : (sample s).pins.cmdValid = x.cmdValid := (congrArg Inputs.cmdValid hx :)
    have hwx : (sample s).pins.cmdWord = x.cmdWord := (congrArg Inputs.cmdWord hx :)
    simp [hs, ← hvx, ← hwx, hv, accept_withPins, runToEffect_withPins]
  · have hvx : (sample s).pins.cmdValid = x.cmdValid := (congrArg Inputs.cmdValid hx :)
    simp [hs, ← hvx, hv]
  · have hready : (sample s).pins.trReqReady = x.trReqReady := (congrArg Inputs.trReqReady hx :)
    simp [hs, requestEdge_withPins hready]
  · simpa [hs] using answerEdge_withPins hx ha
  · have hready : (sample s).pins.rspReady = x.rspReady := (congrArg Inputs.rspReady hx :)
    simp [hs, deliverEdge_withPins hready]

theorem step_next_of_st_ne_wait {s : State} (h : s.st ≠ .wait) : ∃ t, step s = .next t := by
  rw [step_eq]
  split
  · exact ⟨_, rfl⟩
  · cases hs : s.st with
    | wait => exact absurd hs h
    | idle => dsimp only; split <;> exact ⟨_, rfl⟩
    | req | resp => exact ⟨_, rfl⟩

/-- Settles O37: outside WAIT the transport's response signals are not looked at. -/
theorem strayAnswersAreIgnored : Obligations.StrayAnswersAreIgnored := by
  unfold Obligations.StrayAnswersAreIgnored
  intro s p rest v e d hs
  obtain ⟨t, ht⟩ := step_next_of_st_ne_wait (s := { s with script := p :: rest }) hs
  refine ⟨t, ht, step_withPins rfl ?_ ht⟩
  show looksAt s.st p = looksAt s.st _
  cases hst : s.st with
  | wait => exact absurd hst hs
  | idle | req | resp => rfl

/-- A busy machine's edge without a reset keeps `CMD`. -/
theorem step_keeps_cmd {s t : State} (hs : s.st ≠ .idle) (hr : (sample s).pins.rst = false) (h : step s = .next t) :
    t.cmd = s.cmd := by
  obtain ⟨hr', -⟩ | ⟨-, ⟨hi, -⟩ | ⟨hi, -⟩ | ⟨-, rfl⟩ | ⟨-, h⟩ | ⟨-, rfl⟩⟩ := step_next_cases h
  · simp [hr] at hr'
  · exact absurd hi hs
  · exact absurd hi hs
  · simp
  · obtain ⟨-, rfl⟩ | ⟨-, -, rfl⟩ | ⟨-, -, q, rest, -, -, rfl⟩ := answerEdge_next h <;> simp
  · simp

/-- Settles O38: outside IDLE the command port is not looked at. -/
theorem busyMachineAcceptsNoCommand : Obligations.BusyMachineAcceptsNoCommand := by
  unfold Obligations.BusyMachineAcceptsNoCommand
  intro s p rest v w hs
  refine ⟨by simpa [outputs] using hs, fun t ht => ⟨fun hr => step_keeps_cmd (s := { s with script := p :: rest }) hs hr ht,
    step_withPins rfl ?_ ht⟩⟩
  show looksAt s.st p = looksAt s.st _
  cases hst : s.st with
  | idle => exact absurd hst hs
  | req | wait | resp => rfl

/-! ### Reset and acceptance -/

theorem step_of_reset {s : State} (h : (sample s).pins.rst = true) : step s = .next (resetEdge (sample s)) := by
  simp [step_eq, h]

/-- Settles O39: the next state is `resetEdge`, which is idle. -/
theorem resetAbandonsTheCommand : Obligations.ResetAbandonsTheCommand := by
  unfold Obligations.ResetAbandonsTheCommand
  intro s h
  exact ⟨_, step_of_reset h, rfl, rfl, rfl, rfl, sample_cfg s, by simp [edgeEvents, h]⟩

/-- Settles O40, by evaluation of the reset state and its outputs. -/
theorem afterResetTheMachineIsReady : Obligations.AfterResetTheMachineIsReady := by
  unfold Obligations.AfterResetTheMachineIsReady
  exact ⟨rfl, rfl, rfl, rfl, rfl⟩

/-- Settles O42: the reset state is idle. -/
theorem resetIsConsistent : Obligations.ResetIsConsistent :=
  (consistent_iff_control State.reset).mpr ⟨⟨.idle, illegalProgram⟩, .of_idle rfl rfl⟩

/-- Settles O31: a word's pseudocode is its command's, and so are the edges that run it. -/
theorem stepRunsTheDecodedCommand : Obligations.StepRunsTheDecodedCommand := by
  unfold Obligations.StepRunsTheDecodedCommand
  intro s i hr
  constructor
  · intro hs hv hi
    show step s = exec i (accept (sample s).pins.cmdWord (sample s))
    rw [exec_idle (by simpa using hs), step_eq]
    simp [hr, hs, hv, programOfWord_of_decode hi]
  · intro hs hi
    rw [exec_eq_commandEdge, commandEdge_wait ((sample_st s).trans hs), step_eq]
    simp [hr, hs, programOfWord_of_decode hi]

end Sys2Proof.Machine
end

section
/-! Runs: what follows from the simulation by the control, over any number of edges. -/

namespace Sys2Proof.Machine

/-- Settles O45: the request shown is one of lawful pseudocode. -/
theorem requestsStayInTheRegisterMap : Obligations.RequestsStayInTheRegisterMap := by
  unfold Obligations.RequestsStayInTheRegisterMap
  intro s hcons hs
  obtain ⟨m, hst, hm⟩ := (consistent_iff_control s).mp hcons
  obtain ⟨hq, hlaw⟩ := hm (by simp [← hst, hs])
  exact (hlaw.request ((pursues_busy (.inl hs)).mp hq).2).1

/-! ### Noninterference of the idle machine's registers -/

theorem sample_pins_congr {s s' : State} (hscript : s.script = s'.script) (hedges : s.edges = s'.edges) :
    (sample s).pins = (sample s').pins ∧ (sample s).script = (sample s').script := by
  unfold sample
  rw [← hscript, ← hedges]
  split <;> exact ⟨rfl, rfl⟩

/-- What an edge shows is told by the control, the parameter and the inputs. -/
theorem edgeEvents_congr {m : Control} {s s' : State} (h : m.Describes s) (h' : m.Describes s') (hcfg : s.cfg = s'.cfg)
    (hpins : s.pins = s'.pins) : edgeEvents s = edgeEvents s' := by
  obtain ⟨hst, hm⟩ := h
  obtain ⟨hst', hm'⟩ := h'
  unfold edgeEvents
  rw [hpins, hst, hst']
  cases hs : m.st <;> rw [hs] at hst hst'
  case req =>
    obtain ⟨-, hreq⟩ := (pursues_busy (.inl hst)).mp (hm (by simp [hs])).1
    obtain ⟨-, hreq'⟩ := (pursues_busy (.inl hst')).mp (hm' (by simp [hs])).1
    rw [hcfg] at hreq
    have heq : heldRequest s = heldRequest s' := Option.some.inj (hreq.symm.trans hreq')
    unfold heldRequest at heq
    rw [heq]
  case resp =>
    obtain ⟨e, he, hmean⟩ := (pursues_resp hst).mp (hm (by simp [hs])).1
    obtain ⟨e', he', hmean'⟩ := (pursues_resp hst').mp (hm' (by simp [hs])).1
    have heq := (hmean []).symm.trans (hcfg ▸ hmean' [])
    simp only [Transcript.mk.injEq, Option.some.injEq, Prod.mk.injEq, true_and] at heq
    rw [he, he', heq.1, heq.2]

/-- Machines with one control, parameter and inputs show the same for ever. -/
theorem history_congr (k : Nat) {m : Control} {s s' : State} (h : m.Describes s) (h' : m.Describes s')
    (hcfg : s.cfg = s'.cfg) (hscript : s.script = s'.script) (hedges : s.edges = s'.edges) :
    history k s = history k s' := by
  induction k generalizing m s s' with
  | zero => rfl
  | succ k ih =>
    obtain ⟨hpins, hrest⟩ := sample_pins_congr hscript hedges
    obtain ⟨t, ht, hmt⟩ := step_control h
    obtain ⟨t', ht', hmt'⟩ := step_control h'
    obtain ⟨hc, hsc, he⟩ := step_environment ht
    obtain ⟨hc', hsc', he'⟩ := step_environment ht'
    rw [history_succ ht, history_succ ht',
      edgeEvents_congr (Control.describes_sample.mpr h) (Control.describes_sample.mpr h') (by simpa using hcfg) hpins,
      ih hmt (hpins ▸ hmt') (by rw [hc, hc', hcfg]) (by rw [hsc, hsc', hrest]) (by rw [he, he', hedges])]

/-- Settles O50: idle machines have one control, which none of their other registers enters. -/
theorem idleRegistersAreNeverRead : Obligations.IdleRegistersAreNeverRead := by
  unfold Obligations.IdleRegistersAreNeverRead
  intro k s s' hs hs'
  exact history_congr k (m := ⟨.idle, illegalProgram⟩) (.of_idle hs rfl) (.of_idle hs' rfl)

/-! ### Requests and answers -/

theorem outstanding_raiseError (e : Status) (info : Half) (s : State) : outstanding (raiseError e info s) = [] :=
  outstanding_of_st_ne_wait nofun

/-- An edge issues a request, takes the answer to the outstanding one, or does neither (10_state.md R40). -/
theorem edge_balance {s t : State} (hr : (sample s).pins.rst = false) (h : step s = .next t) :
    (answersIn (edgeEvents (sample s))).length + (outstanding t).length =
      (requestsIn (edgeEvents (sample s))).length + (outstanding s).length := by
  obtain ⟨hr', -⟩ | ⟨-, ⟨hs, hv, rfl⟩ | ⟨hs, hv, rfl⟩ | ⟨hs, rfl⟩ | ⟨hs, ha⟩ | ⟨hs, rfl⟩⟩ := step_next_cases h
  · simp [hr] at hr'
  · simp [edgeEvents, hr, hs, hv, answersIn, requestsIn, outstanding_runToEffect, outstanding_of_st_ne_wait]
  · simp [edgeEvents, hr, hs, hv, answersIn, requestsIn, outstanding]
  · cases hv : (sample s).pins.trReqReady <;>
      simp [edgeEvents, hr, hs, hv, answersIn, requestsIn, outstanding]
  · obtain ⟨hv, rfl⟩ | ⟨hv, -, rfl⟩ | ⟨hv, -, q, rest, -, -, rfl⟩ := answerEdge_next ha <;>
      simp [edgeEvents, hr, hs, hv, answersIn, requestsIn, outstanding_runToEffect, outstanding_wait, outstanding_raiseError]
  · cases hv : (sample s).pins.rspReady <;>
      simp [edgeEvents, hr, hs, hv, answersIn, requestsIn, outstanding]

theorem outstanding_length_le_one (s : State) : (outstanding s).length ≤ 1 := by
  unfold outstanding; split <;> simp

theorem answersIn_append (es fs : List Event) : answersIn (es ++ fs) = answersIn es ++ answersIn fs :=
  List.filterMap_append ..

theorem requestsIn_append (es fs : List Event) : requestsIn (es ++ fs) = requestsIn es ++ requestsIn fs :=
  List.filterMap_append ..

/-- Over a run the requests exceed the answers by what became outstanding. -/
theorem history_balance (k : Nat) {m : Control} {s : State} (h : m.Describes s) (hr : .reset ∉ history k s) :
    ∃ n ≤ 1, (answersIn (history k s)).length + n = (requestsIn (history k s)).length + (outstanding s).length := by
  induction k generalizing m s with
  | zero => exact ⟨_, outstanding_length_le_one s, by simp [history, answersIn, requestsIn]⟩
  | succ k ih =>
    obtain ⟨t, ht, hmt⟩ := step_control h
    rw [history_succ ht, List.mem_append, not_or] at hr
    have hrst : (sample s).pins.rst = false := by
      cases hv : (sample s).pins.rst with
      | false => rfl
      | true => simp [edgeEvents, hv] at hr
    obtain ⟨n, hn, hbal⟩ := ih hmt hr.2
    have hedge := edge_balance hrst ht
    refine ⟨n, hn, ?_⟩
    rw [history_succ ht, answersIn_append, requestsIn_append, List.length_append, List.length_append]
    omega

/-- Settles O51: nothing is outstanding in IDLE, so the excess of requests over answers is what is outstanding now. -/
theorem atMostOneRequestOutstanding : Obligations.AtMostOneRequestOutstanding := by
  unfold Obligations.AtMostOneRequestOutstanding
  intro k s hs hr
  obtain ⟨n, hn, hbal⟩ := history_balance k (m := ⟨.idle, illegalProgram⟩) (.of_idle hs rfl) hr
  rw [outstanding_of_st_ne_wait (by simp [hs]), List.length_nil] at hbal
  omega

/-! ### Progress -/

@[simp] theorem edgesLeft_sample (s : State) : edgesLeft (sample s) = edgesLeft s := by
  simp [edgesLeft]

theorem edgesLeft_resp {s : State} (hs : s.st = .resp) : edgesLeft s = 1 := by
  simp [edgesLeft, hs]

/-- From WAIT there is more to come than a response. -/
theorem two_le_edgesLeft_wait {s : State} (hs : s.st = .wait) : 2 ≤ edgesLeft s := by
  cases hp : s.ph <;> simp [edgesLeft, hs, hp]

/-- The answer awaited leaves fewer edges: the second transaction is the last one (10_state.md R40). -/
theorem edgesLeft_answerEdge_lt {s t : State} (hs : s.st = .wait) (hv : s.pins.trRspValid = true)
    (h : answerEdge (programOfWord s.cmd) s = .next t) : edgesLeft t < edgesLeft s := by
  have htwo := two_le_edgesLeft_wait hs
  obtain ⟨hv', -⟩ | ⟨-, -, rfl⟩ | ⟨-, -, q, rest, hq, hrest, rfl⟩ := answerEdge_next h
  · simp [hv] at hv'
  · rw [edgesLeft_resp rfl]
    exact htwo
  · obtain ⟨hst, r, hreq, heq⟩ | ⟨hst, -⟩ := runToEffect_st .second rest (keepOld q s)
    · cases hp : s.ph with
      | first => simp [heq, edgesLeft, hs, hp]
      | second =>
        rw [hp, inFlight_second] at hq
        simp [programOfWord_thirdEffect_end s.cmd _ _ q rest hq hrest] at hreq
    · rw [edgesLeft_resp hst]
      exact htwo

/-- Settles O52: by the state the machine is busy in. -/
theorem awaitedInputBringsTheEndCloser : Obligations.AwaitedInputBringsTheEndCloser := by
  unfold Obligations.AwaitedInputBringsTheEndCloser
  intro s hcons hs hr
  refine ⟨fun ha => ?_, step_of_not_awaited hr⟩
  obtain ⟨m, hm⟩ := (consistent_iff_control s).mp hcons
  obtain ⟨t, ht, -⟩ := step_control hm
  refine ⟨t, ht, ?_⟩
  obtain ⟨hr', -⟩ | ⟨-, ⟨hi, -⟩ | ⟨hi, -⟩ | ⟨hst, rfl⟩ | ⟨hst, h⟩ | ⟨hst, rfl⟩⟩ := step_next_cases ht
  · simp [hr] at hr'
  · exact absurd hi hs
  · exact absurd hi hs
  · have hready : (sample s).pins.trReqReady = true := by simpa [awaitedInput, hst] using ha
    cases hp : s.ph <;> simp [edgesLeft, hst, hready, hp]
  · rw [← edgesLeft_sample s]
    exact edgesLeft_answerEdge_lt (by simpa using hst) (by simpa [awaitedInput, hst] using ha) (by simpa using h)
  · have hready : (sample s).pins.rspReady = true := by simpa [awaitedInput, hst] using ha
    simp [edgesLeft, hst, hready]

/-! ### Eager runs -/

/-- Pseudocode that takes exactly the given number of good answers to its end, whatever they carry. -/
def Program.Takes : Nat → Program → Prop
  | 0, p => p.isEnd = true
  | n + 1, p => p.isEnd = false ∧ ∀ v rest, p.resume v = some rest → rest.Takes n

/-- A command takes the transactions of 70_reset_and_hazards.md R141. -/
theorem programOf_takes (i : Instr) : (programOf i).Takes (maxTransactions i) := by
  cases i
  case deca | dect | encA | encT => rfl
  case sethyst t =>
    simp only [programOf, programSethyst, maxTransactions]
    cases hystCode t with
    | none => rfl
    | some c => exact ⟨rfl, fun v q hq => by cases hq; exact ⟨rfl, fun v q hq => by cases hq; rfl⟩⟩
  case setres t =>
    simp only [programOf, programSetres, maxTransactions]
    cases resCode t with
    | none => rfl
    | some c => exact ⟨rfl, fun v q hq => by cases hq; rfl⟩
  case getres =>
    refine ⟨rfl, fun v q hq => ?_⟩
    cases hq
    dsimp only
    split <;> rfl
  case islock | getamb | getalert | getlimUpper | getlimLower | getlimCrit | setlimUpper | setlimLower | setlimCrit =>
    exact ⟨rfl, fun v q hq => by cases hq; rfl⟩
  all_goals exact ⟨rfl, fun v q hq => by cases hq; exact ⟨rfl, fun v q hq => by cases hq; rfl⟩⟩

/-- A command's word is its own (30_encoding.md R63, R72). -/
theorem programOfWord_encode (i : Instr) : programOfWord (encode i) = programOf i := by
  refine programOfWord_of_decode ?_
  rw [encode, decode_wordOf]
  cases i <;> rfl

theorem core_run_succ {k : Nat} {s t : State} (h : step s = .next t) :
    Host.Core.run core (k + 1) s = Host.Core.run core k t := by
  simp only [Host.Core.run, show core.step s = .next t from h]

/-- The control after an eager edge. -/
def Control.eagerNext (x : Inputs) (m : Control) : Control :=
  match m.st with
  | .idle => controlAt (programOfWord x.cmdWord)
  | .req => { m with st := .wait }
  | .wait => controlAt ((m.left.resume x.trRspRdata).getD m.left)
  | .resp => { m with st := .idle }

theorem eagerInputs_iff (x : Inputs) :
    eagerInputs x = true ↔ x.rst = false ∧ x.cmdValid = true ∧ x.rspReady = true ∧ x.trReqReady = true ∧
      x.trRspValid = true ∧ x.trRspErr = false := by
  simp [eagerInputs, and_assoc]

/-- One eager edge: the control goes on, one sample is used up, and a request is issued exactly in REQ. -/
theorem step_eager {m : Control} {s : State} {x : Inputs} {rest : List Inputs} (h : m.Describes s)
    (hscript : s.script = x :: rest) (hx : eagerInputs x = true) :
    ∃ t, step s = .next t ∧ (m.eagerNext x).Describes t ∧ t.script = rest ∧
      (requestsIn (edgeEvents (sample s))).length = if m.st = .req then 1 else 0 := by
  obtain ⟨t, ht, hmt⟩ := step_control h
  obtain ⟨hpins, hrest⟩ := sample_cons s x rest hscript
  obtain ⟨hr, hc, hrsp, hreq, hv, he⟩ := (eagerInputs_iff x).mp hx
  refine ⟨t, ht, ?_, (step_environment ht).2.1.trans hrest, ?_⟩
  · rw [hpins] at hmt
    cases hs : m.st <;>
      simpa [Control.next, Control.eagerNext, afterAnswer, hs, hr, hc, hrsp, hreq, hv, he] using hmt
  · cases hs : m.st <;> simp [edgeEvents, requestsIn, hpins, h.1, hs, hr, hc, hrsp, hreq, hv]

/-- From REQ or RESP a command with `n` transactions left is over after `n` times two edges and the delivery. -/
theorem run_eager (n : Nat) {q : Program} {s : State} {xs rest : List Inputs} (h : (controlAt q).Describes s)
    (hq : q.Takes n) (hscript : s.script = xs ++ rest) (hlen : xs.length = 2 * n + 1)
    (hxs : ∀ x ∈ xs, eagerInputs x = true) :
    ∃ t : State, Host.Core.run core (2 * n + 1) s = .next t ∧ t.st = .idle ∧ t.script = rest ∧
      (requestsIn (history (2 * n + 1) s)).length = n := by
  induction n generalizing q s xs with
  | zero =>
    obtain ⟨x, rfl⟩ := List.length_eq_one_iff.mp hlen
    have hcontrol : controlAt q = ⟨.resp, q⟩ := by simp only [controlAt, show q.isEnd = true from hq, if_true]
    rw [hcontrol] at h
    obtain ⟨t, ht, hmt, hrest, hnone⟩ := step_eager h hscript (hxs x (by simp))
    refine ⟨t, core_run_succ ht, hmt.1, hrest, ?_⟩
    rw [Nat.mul_zero, history_succ ht, history, List.append_nil]
    exact hnone
  | succ n ih =>
    obtain ⟨hend, htakes⟩ := hq
    have hcontrol : controlAt q = ⟨.req, q⟩ := by simp [controlAt, hend]
    rw [hcontrol] at h
    match xs, hlen with
    | x :: y :: ys, hlen =>
      obtain ⟨t, ht, hmt, htscript, hone⟩ := step_eager h hscript (hxs x (by simp))
      obtain ⟨u, hu, hmu, huscript, hnone⟩ := step_eager hmt htscript (hxs y (by simp))
      obtain ⟨hst, hm⟩ := hmt
      obtain ⟨left, hleft⟩ : ∃ left, q.resume y.trRspRdata = some left := (hm nofun).1.resume (.inr hst) y.trRspRdata
      simp only [Control.eagerNext, hleft, Option.getD_some] at hmu
      obtain ⟨v, hrun, hidle, hvscript, hcount⟩ := ih hmu (htakes _ _ hleft) huscript
        (by simp only [List.length_cons] at hlen; omega) fun z hz => hxs z (by simp [hz])
      refine ⟨v, (core_run_succ ht).trans ((core_run_succ hu).trans hrun), hidle, hvscript, ?_⟩
      rw [show 2 * (n + 1) + 1 = 2 * n + 1 + 1 + 1 from rfl, history_succ ht, history_succ hu, requestsIn_append,
        requestsIn_append, List.length_append, List.length_append, hone, hnone, hcount]
      simp [Control.eagerNext]
      omega

/-- Settles O53: the edge that accepts, and then the eager run. -/
theorem eagerCommandsEnd : Obligations.EagerCommandsEnd := by
  unfold Obligations.EagerCommandsEnd
  intro i s xs rest hs hscript hlen hxs hhead
  match xs, hlen with
  | x :: ys, hlen =>
    obtain ⟨t, ht, hmt, htscript, hnone⟩ :=
      step_eager (m := ⟨.idle, illegalProgram⟩) (.of_idle hs rfl) hscript (hxs x (by simp))
    have hword : programOfWord x.cmdWord = programOf i := by rw [hhead x rfl, programOfWord_encode]
    simp only [Control.eagerNext, hword] at hmt
    obtain ⟨u, hrun, hidle, huscript, hcount⟩ := run_eager _ hmt (programOf_takes i) htscript (by simpa using hlen)
      fun z hz => hxs z (by simp [hz])
    refine ⟨u, (core_run_succ ht).trans hrun, hidle, huscript, ?_⟩
    rw [history_succ ht, requestsIn_append, List.length_append, hnone, hcount]
    simp

end Sys2Proof.Machine
end

section
/-! The byte order of 16-bit writes: what is on the wire, and the document's shift for small values (20_memory.md R45, R48). -/

namespace Sys2Proof.Machine

@[simp] theorem lowByte_bswap16 (v : Half) : lowByte (bswap16 v) = highByte v :=
  BitVec.extractLsb'_append_eq_right

@[simp] theorem highByte_bswap16 (v : Half) : highByte (bswap16 v) = lowByte v :=
  BitVec.extractLsb'_append_eq_left

/-- The normalised word makes up for the order in which the transport writes its bytes (20_memory.md R45). -/
theorem bytesOnWire_wireWord (le : Bool) (v : Half) : bytesOnWire le (wireWord le v) = [highByte v, lowByte v] := by
  cases le with
  | false => rfl
  | true => simp [bytesOnWire]

@[simp] theorem wireWord_wireWord (le : Bool) (v : Half) : wireWord le (wireWord le v) = v := by
  cases le with
  | false => rfl
  | true => exact bswap16_bswap16 v

/-- The shift moves the low byte up, and the high byte that the swap would move down is zero (20_memory.md R48). -/
theorem shiftLeft_eq_bswap16 {v : Half} (h : v.toNat ≤ 0x00FF) : v <<< 8 = bswap16 v := by
  apply BitVec.eq_of_getLsbD_eq
  intro i hi
  rw [BitVec.getLsbD_shiftLeft, getLsbD_bswap16]
  by_cases hlow : i < 8
  · have hzero : v.getLsbD (i + 8) = false :=
      Nat.testBit_lt_two_pow <| calc
        v.toNat < 2 ^ 8 := by omega
        _ ≤ 2 ^ (i + 8) := Nat.pow_le_pow_right (by decide) (Nat.le_add_left 8 i)
    simp [hlow, hzero]
  · simp [hlow, hi]

/-- The document's two write branches give the little-endian wire word (20_memory.md R48). -/
theorem wireWord_little_eq_branches (v : Half) :
    wireWord true v = if v.toNat < 0x00FF then v <<< 8 else bswap16 v := by
  split
  case isTrue h => exact (shiftLeft_eq_bswap16 h.le).symm
  case isFalse => rfl

/-- Settles O30: by the order in which the transport writes its bytes. -/
theorem wiresCarryTheHighByteFirst : Obligations.WiresCarryTheHighByteFirst := by
  unfold Obligations.WiresCarryTheHighByteFirst
  intro le v
  exact ⟨bytesOnWire_wireWord le v, wireWord_wireWord le v, shiftLeft_eq_bswap16, wireWord_little_eq_branches v,
    wireWord_big v⟩

end Sys2Proof.Machine
end

section
/-! The decoder against the encoder and `legal(CMD)` (30_encoding.md R61 to R68, R77). -/

namespace Sys2Proof

/-! ### What the decoder answers -/

/-- What a decoder's answer says of the fields it was given: they are the command's own, or they are not legal. -/
def AnswerTells (c : Cmd) : Except Reject Instr → Prop
  | .ok i => encodeFields i = c
  | .error _ => c.legal = false

theorem Cmd.legal_iff (c : Cmd) :
    c.legal = true ↔ c.opc.toNat ∈ Cmd.opcodes ∧ c.sel.toNat ≤ Cmd.maxSel c.opc.toNat ∧
      (c.opc.toNat ∈ Cmd.zeroOperandOpcodes → c.opnd = 0) := by
  simp only [Cmd.legal, Bool.and_eq_true, List.contains_iff_mem, decide_eq_true_eq, Bool.or_eq_true, Bool.not_eq_true',
    ← Bool.not_eq_true, imp_iff_not_or, and_assoc]

theorem Cmd.legal_eq_false_of_opc {c : Cmd} (h : c.opc.toNat ∉ Cmd.opcodes) : c.legal = false := by
  rw [← Bool.not_eq_true, c.legal_iff]
  exact fun hl => h hl.1

theorem Cmd.legal_eq_false_of_sel {c : Cmd} (h : Cmd.maxSel c.opc.toNat < c.sel.toNat) : c.legal = false := by
  rw [← Bool.not_eq_true, c.legal_iff]
  exact fun hl => absurd hl.2.1 (by omega)

theorem Cmd.legal_eq_false_of_opnd {c : Cmd} (ho : c.opc.toNat ∈ Cmd.zeroOperandOpcodes) (h : c.opnd ≠ 0) :
    c.legal = false := by
  rw [← Bool.not_eq_true, c.legal_iff]
  exact fun hl => h (hl.2.2 ho)

theorem decodeOpndZero_tells {c : Cmd} {i : Instr} (ho : c.opc.toNat ∈ Cmd.zeroOperandOpcodes)
    (hi : c.opnd = 0 → encodeFields i = c) : AnswerTells c (decodeOpndZero c i) := by
  unfold decodeOpndZero
  split
  case isTrue h => exact hi h
  case isFalse h => exact Cmd.legal_eq_false_of_opnd ho h

/-- Fields are the given ones when their numbers are. -/
theorem eq_mk_of_toNat {c : Cmd} {o s : Byte} {d : Half} (ho : c.opc.toNat = o.toNat) (hs : c.sel.toNat = s.toNat)
    (hd : c.opnd = d) : ({ opc := o, sel := s, opnd := d } : Cmd) = c := by
  obtain ⟨opc, sel, opnd⟩ := c
  simp only [Cmd.mk.injEq]
  exact ⟨(BitVec.eq_of_toNat_eq ho).symm, (BitVec.eq_of_toNat_eq hs).symm, hd.symm⟩

theorem toNat_pos_of_ne_zero {b : Byte} (h : b ≠ 0) : 0 < b.toNat := by
  bv_omega

theorem decodeSelZero_tells {c : Cmd} {i : Instr} (ho : Cmd.maxSel c.opc.toNat = 0)
    (hi : c.sel = 0 → encodeFields i = c) : AnswerTells c (decodeSelZero c i) := by
  unfold decodeSelZero
  split
  case isTrue h => exact hi h
  case isFalse h => exact Cmd.legal_eq_false_of_sel (ho ▸ toNat_pos_of_ne_zero h)

theorem decodeBare_tells {c : Cmd} {i : Instr} (ho : Cmd.maxSel c.opc.toNat = 0)
    (hz : c.opc.toNat ∈ Cmd.zeroOperandOpcodes) (hi : c.sel = 0 → c.opnd = 0 → encodeFields i = c) :
    AnswerTells c (decodeBare c i) := by
  unfold decodeBare
  split
  case isTrue h => exact decodeOpndZero_tells hz (hi h)
  case isFalse h => exact Cmd.legal_eq_false_of_sel (ho ▸ toNat_pos_of_ne_zero h)

theorem decodeEnc_tells {c : Cmd} (ho : c.opc.toNat = 0x03) : AnswerTells c (decodeEnc c) := by
  unfold decodeEnc
  split
  case h_3 => exact Cmd.legal_eq_false_of_sel (by grind [Cmd.maxSel])
  all_goals exact eq_mk_of_toNat ho ‹_› rfl

theorem decodeSetlim_tells {c : Cmd} (ho : c.opc.toNat = 0x20) : AnswerTells c (decodeSetlim c) := by
  unfold decodeSetlim
  split
  case h_4 => exact Cmd.legal_eq_false_of_sel (by grind [Cmd.maxSel])
  all_goals exact eq_mk_of_toNat ho ‹_› rfl

theorem decodeGetlim_tells {c : Cmd} (ho : c.opc.toNat = 0x21) : AnswerTells c (decodeGetlim c) := by
  unfold decodeGetlim
  split
  case h_4 => exact Cmd.legal_eq_false_of_sel (by grind [Cmd.maxSel])
  all_goals exact decodeOpndZero_tells (by rw [ho]; decide) (eq_mk_of_toNat ho ‹_›)

theorem decodeSetf_tells {c : Cmd} (ho : c.opc.toNat = 0x10) : AnswerTells c (decodeSetf c) := by
  unfold decodeSetf
  split
  case h_10 => exact Cmd.legal_eq_false_of_sel (by grind [Cmd.maxSel])
  all_goals exact decodeOpndZero_tells (by rw [ho]; decide) (eq_mk_of_toNat ho ‹_›)

theorem decodeClrf_tells {c : Cmd} (ho : c.opc.toNat = 0x11) : AnswerTells c (decodeClrf c) := by
  unfold decodeClrf
  split
  case h_10 => exact Cmd.legal_eq_false_of_sel (by grind [Cmd.maxSel])
  all_goals exact decodeOpndZero_tells (by rw [ho]; decide) (eq_mk_of_toNat ho ‹_›)

/-- Everything the decoder answers: a command with exactly these fields, or a rejection of fields that are not legal. -/
theorem decodeFields_tells (c : Cmd) : AnswerTells c (decodeFields c) := by
  unfold decodeFields
  split
  case h_3 ho => exact decodeEnc_tells ho
  case h_4 ho => exact decodeSetf_tells ho
  case h_5 ho => exact decodeClrf_tells ho
  case h_10 ho => exact decodeSetlim_tells ho
  case h_11 ho => exact decodeGetlim_tells ho
  case h_1 ho | h_2 ho | h_6 ho | h_7 ho =>
    exact decodeSelZero_tells (by rw [ho]; decide) fun hs => eq_mk_of_toNat ho (by rw [hs]) rfl
  case h_8 ho | h_9 ho | h_12 ho | h_13 ho | h_14 ho =>
    exact decodeBare_tells (by rw [ho]; decide) (by rw [ho]; decide) fun hs hd => eq_mk_of_toNat ho (by rw [hs]) hd
  case h_15 => exact Cmd.legal_eq_false_of_opc (by simp_all [Cmd.opcodes])

/-! ### Decode and encode -/

theorem decode_encode (i : Instr) : decode (encode i) = .ok i := by
  rw [encode, decode_wordOf]
  cases i <;> rfl

theorem encode_of_decode {w : Word} {i : Instr} (h : decode w = .ok i) : encode i = w := by
  have htells := decodeFields_tells (fieldsOf w)
  rw [show decodeFields (fieldsOf w) = .ok i from h] at htells
  rw [encode, show encodeFields i = fieldsOf w from htells, wordOf_fieldsOf]

theorem legal_of_decode {w : Word} {i : Instr} (h : decode w = .ok i) : (fieldsOf w).legal = true := by
  rw [← encode_of_decode h]
  exact Laws.Encoding.legal_encode i

theorem legal_of_decode_error {w : Word} {e : Reject} (h : decode w = .error e) : (fieldsOf w).legal = false := by
  have htells := decodeFields_tells (fieldsOf w)
  rwa [show decodeFields (fieldsOf w) = .error e from h] at htells

/-- The decoder accepts exactly the legal words (30_encoding.md R66). -/
theorem decode_isSome (w : Word) : (decode w).toOption.isSome = (fieldsOf w).legal := by
  cases h : decode w with
  | ok i => exact (legal_of_decode h).symm
  | error e => exact (legal_of_decode_error h).symm

theorem exists_decode_iff_legal (w : Word) : (∃ i, decode w = .ok i) ↔ (fieldsOf w).legal = true := by
  rw [← decode_isSome]
  cases decode w <;> simp [Except.toOption]

/-- Settles O2: the word's fields are the command's, and each command's own fields decode to it. -/
theorem decodeOfEncode : Obligations.DecodeOfEncode :=
  decode_encode

/-- Settles O3: the decoder answers a command only for that command's own fields. -/
theorem encodeOfDecode : Obligations.EncodeOfDecode := by
  unfold Obligations.EncodeOfDecode
  exact fun w i => encode_of_decode

/-- Settles O1, by evaluation of the decoder. -/
theorem writtenOutWordsDecode : Obligations.WrittenOutWordsDecode := by
  unfold Obligations.WrittenOutWordsDecode
  decide

/-! ### The legal words -/

/-- The selector clause of `legal(CMD)`, on bytes. -/
theorem Cmd.sel_le_maxSel_iff (c : Cmd) :
    c.sel.toNat ≤ Cmd.maxSel c.opc.toNat ↔
      if c.opc = (0x03 : Byte) then c.sel.toNat ≤ 0x01
      else if c.opc ∈ ([0x10, 0x11] : List Byte) then c.sel.toNat ≤ 0x08
      else if c.opc ∈ ([0x20, 0x21] : List Byte) then c.sel.toNat ≤ 0x02
      else c.sel = (0x00 : Byte) := by
  have hzero : c.sel = (0x00 : Byte) ↔ c.sel.toNat ≤ 0 := by bv_omega
  simp only [Cmd.maxSel, List.mem_cons, List.not_mem_nil, or_false, BitVec.toNat_eq, hzero]
  split_ifs <;> simp_all

/-- The opcode clause of `legal(CMD)`, on bytes. -/
theorem Cmd.opc_mem_opcodes_iff (c : Cmd) :
    c.opc.toNat ∈ Cmd.opcodes ↔
      c.opc ∈ ([0x01, 0x02, 0x03, 0x10, 0x11, 0x12, 0x13, 0x14, 0x15, 0x20, 0x21, 0x22, 0x23, 0x30] : List Byte) :=
  List.mem_map_of_injective (l := [0x01, 0x02, 0x03, 0x10, 0x11, 0x12, 0x13, 0x14, 0x15, 0x20, 0x21, 0x22, 0x23, 0x30])
    BitVec.toNat_injective

/-- The opcodes of the operand clause of `legal(CMD)`, on bytes. -/
theorem Cmd.opc_mem_zeroOperandOpcodes_iff (c : Cmd) :
    c.opc.toNat ∈ Cmd.zeroOperandOpcodes ↔
      c.opc ∈ ([0x10, 0x11, 0x14, 0x15, 0x21, 0x22, 0x23, 0x30] : List Byte) :=
  List.mem_map_of_injective (l := [0x10, 0x11, 0x14, 0x15, 0x21, 0x22, 0x23, 0x30]) BitVec.toNat_injective

/-- Settles O4: the decoder accepts exactly the legal words, and `legal(CMD)` is its three clauses. -/
theorem decodesExactlyTheLegalWords : Obligations.DecodesExactlyTheLegalWords := by
  unfold Obligations.DecodesExactlyTheLegalWords
  intro w
  rw [exists_decode_iff_legal, Cmd.legal_iff]
  exact and_congr (fieldsOf w).opc_mem_opcodes_iff
    (and_congr (fieldsOf w).sel_le_maxSel_iff (imp_congr_left (fieldsOf w).opc_mem_zeroOperandOpcodes_iff))

/-! ### The rows of the table -/

/-- The row of opcode_table.json for the command with the given fields (30_encoding.md R77): the operand is matched where it
must be zero, and free elsewhere. -/
def rowOf (c : Cmd) : Word × Word :=
  if c.opc.toNat ∈ Cmd.zeroOperandOpcodes then (wordOf c, 0xFFFFFFFF) else (wordOf { c with opnd := 0 }, 0xFFFF0000)

theorem rowOf_of_zeroOperand {c : Cmd} (h : c.opc.toNat ∈ Cmd.zeroOperandOpcodes) : rowOf c = (wordOf c, 0xFFFFFFFF) :=
  if_pos h

theorem rowOf_of_freeOperand {o s : Byte} {d : Half} (h : o.toNat ∉ Cmd.zeroOperandOpcodes) :
    rowOf ⟨o, s, d⟩ = (wordOf ⟨o, s, 0⟩, 0xFFFF0000) :=
  if_neg h

/-- The mask of a row with a free operand keeps the opcode and the selector. -/
theorem wordOf_and_mask (o s : Byte) (d : Half) : wordOf ⟨o, s, d⟩ &&& 0xFFFF0000 = wordOf ⟨o, s, 0⟩ := by
  apply fieldsOf_inj
  have hfields := fieldsOf_wordOf ⟨o, s, d⟩
  simp only [fieldsOf, Cmd.mk.injEq] at hfields
  obtain ⟨ho, hs, -⟩ := hfields
  rw [fieldsOf_wordOf]
  simp only [fieldsOf, BitVec.extractLsb'_and, ho, hs, Cmd.mk.injEq]
  exact ⟨BitVec.and_allOnes, BitVec.and_allOnes, BitVec.and_zero⟩

theorem and_rowOf (c : Cmd) : wordOf c &&& (rowOf c).2 = (rowOf c).1 := by
  obtain ⟨o, s, d⟩ := c
  by_cases h : o.toNat ∈ Cmd.zeroOperandOpcodes
  · rw [rowOf_of_zeroOperand h]
    exact BitVec.and_allOnes
  · rw [rowOf_of_freeOperand h, wordOf_and_mask]

/-- Each row of the table is the row of its own word, which is legal. -/
theorem opcodeRows_rowOf : ∀ r ∈ opcodeRows, (fieldsOf r.1).legal = true ∧ rowOf (fieldsOf r.1) = r := by
  have hall : (opcodeRows.all fun r => (fieldsOf r.1).legal && rowOf (fieldsOf r.1) == r) = true := rfl
  simpa only [List.all_eq_true, Bool.and_eq_true, beq_iff_eq] using hall

theorem opcodeRows_nodup : opcodeRows.Nodup := by
  decide

/-- The row of a command is in the table. -/
theorem rowOf_encodeFields_mem (i : Instr) : rowOf (encodeFields i) ∈ opcodeRows := by
  cases i
  case deca | dect | encA | encT | sethyst | setres | setlimUpper | setlimLower | setlimCrit =>
    rw [encodeFields, rowOf_of_freeOperand (by decide)]
    decide
  all_goals decide

/-- A free operand is not looked at by `legal(CMD)`. -/
theorem legal_of_freeOperand {o s : Byte} {d d' : Half} (ho : o.toNat ∉ Cmd.zeroOperandOpcodes)
    (h : (Cmd.mk o s d').legal = true) : (Cmd.mk o s d).legal = true := by
  rw [Cmd.legal_iff] at h ⊢
  exact ⟨h.1, h.2.1, fun hz => absurd hz ho⟩

/-- The rows that given fields match are the row of those fields, if they are legal. -/
theorem and_eq_row_iff {c : Cmd} {r : Word × Word} (hr : r ∈ opcodeRows) :
    wordOf c &&& r.2 = r.1 ↔ c.legal = true ∧ rowOf c = r := by
  constructor
  · intro hmatch
    obtain ⟨hlegal, hrow⟩ := opcodeRows_rowOf r hr
    generalize fieldsOf r.1 = c' at hlegal hrow
    subst hrow
    obtain ⟨o', s', d'⟩ := c'
    by_cases ho : o'.toNat ∈ Cmd.zeroOperandOpcodes
    · rw [rowOf_of_zeroOperand ho] at hmatch
      have hword : wordOf c = wordOf ⟨o', s', d'⟩ := BitVec.and_allOnes.symm.trans hmatch
      rw [show c = ⟨o', s', d'⟩ by rw [← fieldsOf_wordOf c, hword, fieldsOf_wordOf]]
      exact ⟨hlegal, rfl⟩
    · obtain ⟨o, s, d⟩ := c
      rw [rowOf_of_freeOperand ho, wordOf_and_mask] at hmatch
      have hfields := congrArg fieldsOf hmatch
      simp only [fieldsOf_wordOf, Cmd.mk.injEq, and_true] at hfields
      obtain ⟨rfl, rfl⟩ := hfields
      exact ⟨legal_of_freeOperand ho hlegal, by rw [rowOf_of_freeOperand ho, rowOf_of_freeOperand ho]⟩
  · rintro ⟨-, rfl⟩
    exact and_rowOf c

/-- Settles O5: the row a legal word matches is the row of its fields, which the table holds once. -/
theorem everyWordIsOneRowOrIllegal : Obligations.EveryWordIsOneRowOrIllegal := by
  unfold Obligations.EveryWordIsOneRowOrIllegal
  intro w
  have hrows : (opcodeRows.filter fun r => w &&& r.2 == r.1) =
      opcodeRows.filter fun r => (fieldsOf w).legal && r == rowOf (fieldsOf w) := by
    refine List.filter_congr fun r hr => ?_
    rw [Bool.eq_iff_iff, beq_iff_eq, Bool.and_eq_true, beq_iff_eq, eq_comm (a := r), ← and_eq_row_iff hr, wordOf_fieldsOf]
  rw [hrows, decode_isSome]
  cases h : (fieldsOf w).legal with
  | false => simp
  | true =>
    obtain ⟨i, hi⟩ := (exists_decode_iff_legal w).mpr h
    have hmem := rowOf_encodeFields_mem i
    rw [← fieldsOf_wordOf (encodeFields i), show wordOf (encodeFields i) = w from encode_of_decode hi] at hmem
    have hcount := List.count_eq_one_of_mem opcodeRows_nodup hmem
    simpa [List.count_eq_length_filter] using hcount

end Sys2Proof
end

section
/-! Illegal words (30_encoding.md R66 to R68): accepting one ends the command with IllegalCommand and no request. -/

namespace Sys2Proof.Machine

theorem programOfWord_of_illegal {w : Word} (h : (fieldsOf w).legal = false) : programOfWord w = illegalProgram := by
  unfold programOfWord
  cases hd : decode w with
  | ok i => rw [legal_of_decode hd] at h; cases h
  | error e => rfl

/-- A word that is not legal, once accepted, ends with IllegalCommand (30_encoding.md R67). -/
theorem endsIllegal_of_illegal {w : Word} (h : (fieldsOf w).legal = false) : EndsIllegal w := by
  intro s hs
  rw [executeWord_eq_commandEdge, commandEdge_idle hs, programOfWord_of_illegal h]
  rfl

/-- Settles O6: a reserved opcode fails the first clause of `legal(CMD)`. -/
theorem reservedOpcodesAreIllegal : Obligations.ReservedOpcodesAreIllegal := by
  unfold Obligations.ReservedOpcodesAreIllegal
  refine ⟨endsIllegal_of_illegal (by decide), fun w hw => endsIllegal_of_illegal (Cmd.legal_eq_false_of_opc ?_)⟩
  show (w.extractLsb' 24 8).toNat ∉ Cmd.opcodes
  simp only [Cmd.opcodes, List.mem_cons, List.not_mem_nil, or_false]
  omega

/-- Settles O7: the pseudocode of an illegal word is the one that raises IllegalCommand. -/
theorem illegalWordEndsTheCommand : Obligations.IllegalWordEndsTheCommand := by
  unfold Obligations.IllegalWordEndsTheCommand
  intro s hr hs hv hw
  simp only [step_eq, hr, hs, hv, programOfWord_of_illegal hw]
  rfl

end Sys2Proof.Machine
end

section
/-! The exact encode and the port's encode on whole sixteenths of a degree (40_codec.md R81, R82; 92_eei_decisions.md D9). -/

namespace Sys2Proof.Machine

/-! ### The magnitude of an encoding -/

/-- The mask of the encodings keeps ten bits, from bit 2 on: a magnitude in whole quarters, less its overflow. -/
theorem and_0x0FFC (n : ℕ) : n &&& 0x0FFC = n / 4 % 1024 * 4 := by
  have hlow : (n &&& 0x0FFC) % 4 = 0 := by
    rw [show 4 = 2 ^ 2 from rfl, Nat.and_mod_two_pow]
    exact Nat.and_zero _
  have hhigh : (n &&& 0x0FFC) / 4 = n / 4 % 1024 := by
    rw [show 4 = 2 ^ 2 from rfl, ← Nat.shiftRight_eq_div_pow, Nat.shiftRight_and_distrib, Nat.shiftRight_eq_div_pow]
    exact Nat.and_two_pow_sub_one_eq_mod _ 10
  omega

/-- A magnitude in sixteenths of a degree, rounded toward zero. -/
def sixteenths (t : ℚ) : ℕ := ⌊16 * |t|⌋₊

theorem floor_eq_sixteenths_div (t : ℚ) (k : ℕ) : ⌊16 * |t| / k⌋ = ((sixteenths t / k : ℕ) : ℤ) := by
  rw [Int.floor_div_natCast, ← Int.natCast_floor_eq_floor (by positivity)]
  rfl

/-- The whole degrees of a magnitude (40_codec.md R81). -/
theorem wholeDegrees_eq (t : ℚ) : (|t|).floor.toNat = sixteenths t / 16 := by
  have h := floor_eq_sixteenths_div t 16
  rw [Nat.cast_ofNat, mul_div_cancel_left₀ _ (by norm_num)] at h
  rw [show (|t|).floor = _ from h, Int.toNat_natCast]

/-- The quarters of a magnitude beside its whole degrees (40_codec.md R81). -/
theorem quarters_eq (t : ℚ) : (4 * (|t| - ((sixteenths t / 16 : ℕ) : ℚ))).floor.toNat = sixteenths t / 4 % 4 := by
  have hsplit : 4 * (|t| - ((sixteenths t / 16 : ℕ) : ℚ)) = 16 * |t| / (4 : ℕ) - (4 * (sixteenths t / 16) : ℕ) := by
    push_cast
    ring
  rw [hsplit, show Rat.floor _ = ⌊16 * |t| / (4 : ℕ) - ((4 * (sixteenths t / 16) : ℕ) : ℚ)⌋ from rfl,
    Int.floor_sub_natCast, floor_eq_sixteenths_div]
  omega

/-- The magnitude field of the exact encode, built of whole degrees and quarters, is that of the sixteenths. -/
theorem encodeExact_eq (t : ℚ) :
    encodeExact t =
      BitVec.ofNat 16 (if t < 0 then sixteenths t &&& 0x0FFC ||| 0x1000 else sixteenths t &&& 0x0FFC) := by
  have habs : (if t < 0 then -t else t) = |t| := by
    split
    case isTrue h => exact (abs_of_neg h).symm
    case isFalse h => exact (abs_of_nonneg (not_lt.mp h)).symm
  unfold encodeExact
  simp only [habs, wholeDegrees_eq, quarters_eq]
  rw [Nat.shiftLeft_eq _ 2, ← Nat.shiftLeft_add_eq_or_of_lt (by omega), Nat.shiftLeft_eq, and_0x0FFC, and_0x0FFC,
    show (sixteenths t / 16 * 2 ^ 4 + sixteenths t / 4 % 4 * 2 ^ 2) / 4 = sixteenths t / 4 by omega]

theorem toS16_toU16 {x : ℤ} (hlo : -32768 ≤ x) (hhi : x ≤ 32767) : toS16 (toU16 x) = x :=
  BitVec.toInt_ofInt_eq_self (by decide) hlo (by omega)

/-- The port's encode of a word agrees with the exact encode of a temperature of the same sign and the same quarters. -/
theorem encodeTemp_toU16_eq_encodeExact {t : ℚ} {x : ℤ} (hlo : -32768 ≤ x) (hhi : x ≤ 32767) (hsign : x < 0 ↔ t < 0)
    (hmag : x.natAbs / 4 = sixteenths t / 4) : encodeTemp (toU16 x) = encodeExact t := by
  rw [encodeExact_eq, encodeTemp, toS16_toU16 hlo hhi]
  simp only [and_0x0FFC, hmag, hsign]
  split <;> simp

/-! ### The host mapping -/

theorem floor_eq_sixteenths_of_nonneg {t : ℚ} (h : 0 ≤ t) : ⌊16 * t⌋ = sixteenths t := by
  rw [sixteenths, abs_of_nonneg h, Int.natCast_floor_eq_floor (by positivity)]

theorem floor_eq_sixteenths_of_neg {t : ℚ} (h : t < 0) : ⌊-16 * t⌋ = sixteenths t := by
  rw [sixteenths, abs_of_neg h, Int.natCast_floor_eq_floor (by linarith), mul_neg, neg_mul]

/-- Settles O14, by the three cases of the host mapping: each gives a word in range, of the temperature's sign, and with the
temperature's quarters. -/
theorem hostMappingKeepsTheEncoding : Obligations.HostMappingKeepsTheEncoding := by
  unfold Obligations.HostMappingKeepsTheEncoding
  intro t hlo hhi
  unfold hostOperand
  split_ifs with hsmall hneg
  · obtain ⟨hgt, hlt⟩ := hsmall
    have hfloor := floor_eq_sixteenths_of_neg hlt
    have hzero : ⌊-16 * t⌋ = 0 := Int.floor_eq_zero_iff.mpr ⟨by linarith, by linarith⟩
    exact encodeTemp_toU16_eq_encodeExact (by decide) (by decide) (iff_of_true (by decide) hlt) (by omega)
  · have hfloor : (-16 * t).floor = sixteenths t := floor_eq_sixteenths_of_neg hneg
    have hpos : 1 ≤ ⌊-16 * t⌋ := Int.le_floor.mpr (by push_cast; by_contra h; exact hsmall ⟨by linarith, hneg⟩)
    have hle : ⌊-16 * t⌋ ≤ 32768 := Int.floor_le_iff.mpr (by push_cast; linarith)
    rw [floor_eq_sixteenths_of_neg hneg] at hpos hle
    rw [hfloor]
    exact encodeTemp_toU16_eq_encodeExact (by omega) (by omega) (iff_of_true (by omega) hneg) (by omega)
  · have hfloor : (16 * t).floor = sixteenths t := floor_eq_sixteenths_of_nonneg (not_lt.mp hneg)
    have hle : ⌊16 * t⌋ ≤ 32767 := Int.floor_le_iff.mpr (by push_cast; linarith)
    rw [floor_eq_sixteenths_of_nonneg (not_lt.mp hneg)] at hle
    rw [hfloor]
    exact encodeTemp_toU16_eq_encodeExact (by omega) (by omega) (iff_of_false (by omega) hneg) (by omega)

end Sys2Proof.Machine
end

section
/-! The assembler on the disassembler's text (30_encoding.md R71 to R76): how a printed line is cut into tokens, and how its
literals are read back. -/

namespace Sys2Proof.Machine

/-! ### Cutting a line into tokens -/

/-- The characters that end a token (30_encoding.md R71, log 11). -/
def separators : List Char := [' ', '\t', '\r', ',']

/-- A text that the assembler reads as one token, in capitals. -/
abbrev Spells (text token : List Char) : Prop :=
  ';' ∉ text ∧ text.map Char.toUpper = token ∧ token ≠ [] ∧ token.all (· ∉ separators) = true

/-- A character that stands for itself within a token. -/
abbrev IsPlain (c : Char) : Prop := c ≠ ';' ∧ c.toUpper = c ∧ c ∉ separators

theorem spells_self {cs : List Char} (hne : cs ≠ []) (h : ∀ c ∈ cs, IsPlain c) : Spells cs cs :=
  ⟨fun hmem => (h _ hmem).1 rfl, (List.map_congr_left fun c hc => (h c hc).2.1).trans (List.map_id cs), hne,
    List.all_eq_true.mpr fun c hc => decide_eq_true (h c hc).2.2⟩

theorem plainLine_append {cs : List Char} (rest : List Char) (h : ';' ∉ cs) :
    plainLine (cs ++ rest) = cs.map Char.toUpper ++ plainLine rest := by
  have hall : ∀ c ∈ cs, decide (c ≠ ';') = true := fun c hc => by
    simpa using fun heq : c = ';' => h (heq ▸ hc)
  rw [plainLine, List.takeWhile_append_of_pos hall, List.map_append]
  rfl

/-- A run of characters that are no separators is taken in hand. -/
theorem tokenize_append (acc : List Char) {cs : List Char} (rest : List Char) (h : cs.all (· ∉ separators) = true) :
    tokenize acc (cs ++ rest) = tokenize (cs.reverse ++ acc) rest := by
  induction cs generalizing acc with
  | nil => rfl
  | cons c cs ih =>
    rw [List.all_cons, Bool.and_eq_true, decide_eq_true_eq] at h
    obtain ⟨hc, hcs⟩ := h
    simp only [separators, List.mem_cons, List.not_mem_nil, or_false, not_or] at hc
    obtain ⟨hblank, htab, hcr, hcomma⟩ := hc
    simp [tokenize, hblank, htab, hcr, hcomma, ih (c :: acc) hcs]

theorem tokenOf_reverse {cs : List Char} (h : cs ≠ []) : tokenOf cs.reverse = [.text cs] := by
  simp [tokenOf, h]

/-- The tokens of a line, from a point at which no token is begun. -/
def lineTokens (cs : List Char) : List AsmToken := tokenize [] (plainLine cs)

theorem Spells.lineTokens_end {text token : List Char} (h : Spells text token) : lineTokens text = [.text token] := by
  obtain ⟨hsemi, htoken, hne, hsep⟩ := h
  have hplain := plainLine_append [] hsemi
  have htokens := tokenize_append [] [] hsep
  rw [List.append_nil] at hplain htokens
  rw [lineTokens, hplain, htoken, plainLine, List.takeWhile_nil, List.map_nil, List.append_nil, htokens, List.append_nil,
    tokenize, tokenOf_reverse hne]

theorem Spells.lineTokens_blank {text token : List Char} (h : Spells text token) (rest : List Char) :
    lineTokens (text ++ ' ' :: rest) = .text token :: lineTokens rest := by
  obtain ⟨hsemi, htoken, hne, hsep⟩ := h
  rw [lineTokens, plainLine_append _ hsemi, htoken, tokenize_append _ _ hsep, List.append_nil]
  show tokenize token.reverse (' ' :: plainLine rest) = _
  simp [tokenize, tokenOf_reverse hne, lineTokens]

theorem Spells.lineTokens_comma {text token : List Char} (h : Spells text token) (rest : List Char) :
    lineTokens (text ++ ',' :: ' ' :: rest) = .text token :: .comma :: lineTokens rest := by
  obtain ⟨hsemi, htoken, hne, hsep⟩ := h
  rw [lineTokens, plainLine_append _ hsemi, htoken, tokenize_append _ _ hsep, List.append_nil]
  show tokenize token.reverse (',' :: ' ' :: plainLine rest) = _
  simp [tokenize, lineTokens, tokenOf, hne]

theorem assemble_noOperand {m m' : List Char} (hm : Spells m m') : assemble m = asmOf (asm0 m') := by
  rw [assemble, show tokenize [] (plainLine m) = _ from hm.lineTokens_end]

theorem assemble_oneOperand {m m' a a' : List Char} (hm : Spells m m') (ha : Spells a a') :
    assemble (m ++ ' ' :: a) = asmOf (asm1 m' a') := by
  have htokens := hm.lineTokens_blank a
  rw [ha.lineTokens_end] at htokens
  rw [assemble, show tokenize [] _ = _ from htokens]

theorem assemble_twoOperands {m m' a a' b b' : List Char} (hm : Spells m m') (ha : Spells a a') (hb : Spells b b') :
    assemble (m ++ ' ' :: a ++ [',', ' '] ++ b) = asmOf (asm2 m' a' b') := by
  have htokens := hm.lineTokens_blank (a ++ ',' :: ' ' :: b)
  rw [ha.lineTokens_comma, hb.lineTokens_end] at htokens
  rw [assemble, show m ++ ' ' :: a ++ [',', ' '] ++ b = m ++ ' ' :: (a ++ ',' :: ' ' :: b) by simp,
    show tokenize [] _ = _ from htokens]

/-! ### Numbers -/

theorem readDigits_append (base : ℕ) (digit : Char → Option ℕ) (acc : ℕ) (xs ys : List Char) :
    readDigits base digit acc (xs ++ ys) = (readDigits base digit acc xs).bind fun n => readDigits base digit n ys := by
  induction xs generalizing acc with
  | nil => rfl
  | cons c cs ih =>
    simp only [List.cons_append, readDigits]
    cases digit c with
    | none => rfl
    | some d => exact ih _

/-- Digits read before count by the place they stand at. -/
theorem readDigits_acc (base : ℕ) (digit : Char → Option ℕ) (acc : ℕ) (cs : List Char) :
    readDigits base digit acc cs = (readDigits base digit 0 cs).map (base ^ cs.length * acc + ·) := by
  induction cs generalizing acc with
  | nil => simp [readDigits]
  | cons c cs ih =>
    simp only [readDigits]
    cases digit c with
    | none => rfl
    | some d =>
      simp only [Option.bind_some]
      rw [ih (base * acc + d), ih (base * 0 + d), Option.map_map]
      congr 1
      funext n
      simp only [Function.comp_apply, List.length_cons, pow_succ]
      ring

/-! ### Hexadecimal literals -/

theorem hexDigit_hexChar : ∀ d < 16, hexDigit (hexChar d) = some d := by
  decide

theorem isPlain_hexChar : ∀ d < 16, IsPlain (hexChar d) := by
  decide

theorem isPlain_of_mem_hexChars {k n : ℕ} {c : Char} (h : c ∈ hexChars k n) : IsPlain c := by
  induction k generalizing n with
  | zero => cases h
  | succ k ih =>
    obtain h | h := List.mem_append.mp h
    · exact ih h
    · rw [List.mem_singleton.mp h]
      exact isPlain_hexChar _ (Nat.mod_lt _ (by decide))

theorem length_hexChars (k n : ℕ) : (hexChars k n).length = k := by
  induction k generalizing n with
  | zero => rfl
  | succ k ih => simp [hexChars, ih]

/-- Hexadecimal digits are read back as the number they print, cut to the digits printed. -/
theorem readDigits_hexChars (k n : ℕ) : readDigits 16 hexDigit 0 (hexChars k n) = some (n % 16 ^ k) := by
  induction k generalizing n with
  | zero => simp [hexChars, readDigits, Nat.mod_one]
  | succ k ih =>
    have hmod : n % 16 ^ (k + 1) = n % 16 + 16 * (n / 16 % 16 ^ k) := by rw [pow_succ', Nat.mod_mul]
    simp [hexChars, readDigits_append, ih, readDigits, hexDigit_hexChar _ (Nat.mod_lt n (by decide)), hmod, Nat.add_comm]

theorem readHex_hexChars {lo hi k : ℕ} (n : ℕ) (hlo : lo ≤ k) (hhi : k ≤ hi) :
    readHex lo hi ('0' :: 'X' :: hexChars k n) = some (n % 16 ^ k) := by
  rw [readHex, length_hexChars, if_pos ⟨hlo, hhi⟩, readDigits_hexChars]

theorem spells_hexLiteral (k n : ℕ) : Spells ('0' :: 'x' :: hexChars k n) ('0' :: 'X' :: hexChars k n) := by
  have hplain : ∀ c ∈ '0' :: 'X' :: hexChars k n, IsPlain c := by
    simp only [List.forall_mem_cons]
    exact ⟨by decide, by decide, fun c => isPlain_of_mem_hexChars⟩
  obtain ⟨hsemi, hupper, hne, hsep⟩ := spells_self (List.cons_ne_nil _ _) hplain
  exact ⟨by simpa using hsemi, by simpa using hupper, hne, hsep⟩

theorem readRaw_hexChars (r : Half) : readRaw ('0' :: 'X' :: hexChars 4 r.toNat) = some r := by
  rw [readRaw, readHex_hexChars _ (by decide) (by decide), Nat.mod_eq_of_lt (show r.toNat < 16 ^ 4 from r.isLt)]
  simp

/-! ### Decimal temperatures -/

theorem decDigit_decChar (d : ℕ) : decDigit (decChar d) = some (d % 10) := by
  have hdigit : ∀ e < 10, decDigit (Char.ofNat ('0'.toNat + e)) = some e := by decide
  exact hdigit _ (Nat.mod_lt _ (by decide))

/-- What the assembler asks of a decimal digit beside its value. -/
theorem decChar_ordinary (d : ℕ) :
    IsPlain (decChar d) ∧ decChar d ≠ '.' ∧ decChar d ≠ '#' ∧ decChar d ≠ '-' ∧ decChar d ≠ '+' := by
  have hdigit : ∀ e < 10, ∀ c, c = Char.ofNat ('0'.toNat + e) → IsPlain c ∧ c ≠ '.' ∧ c ≠ '#' ∧ c ≠ '-' ∧ c ≠ '+' := by
    simp only [forall_eq]
    decide
  exact hdigit _ (Nat.mod_lt _ (by decide)) _ rfl

theorem wholeChars_digits {n : ℕ} {c : Char} (h : c ∈ wholeChars n) : ∃ d, c = decChar d := by
  simp only [wholeChars, List.mem_append, List.mem_ite_nil_right, List.mem_singleton] at h
  obtain ((⟨-, h⟩ | ⟨-, h⟩) | ⟨-, h⟩) | h := h <;> exact ⟨_, h⟩

theorem fracChars_digits {d : ℕ} {c : Char} (h : c ∈ fracChars d) : ∃ e, c = decChar e := by
  simp only [fracChars, List.mem_append, List.mem_ite_nil_left, List.mem_singleton] at h
  obtain ((h | ⟨-, h⟩) | ⟨-, h⟩) | ⟨-, h⟩ := h <;> exact ⟨_, h⟩

theorem readDigits_wholeChars {n : ℕ} (h : n < 10000) : readDigits 10 decDigit 0 (wholeChars n) = some n := by
  unfold wholeChars
  split_ifs <;> simp [readDigits, decDigit_decChar] <;> omega

/-- The printed fraction is exact: `d` sixteenths. -/
theorem readDigits_fracChars : ∀ d < 16,
    readDigits 10 decDigit 0 (fracChars d) = some (d * 10 ^ (fracChars d).length / 16) ∧
    16 * (d * 10 ^ (fracChars d).length / 16) = d * 10 ^ (fracChars d).length := by
  decide

/-- The printed magnitude of a temperature: `n` degrees and `d` sixteenths. -/
def magnitudeChars (n d : ℕ) : List Char := wholeChars n ++ '.' :: fracChars d

theorem printTemp_eq (t : Half) :
    printTemp t = (if toS16 t < 0 then ['-'] else []) ++
      magnitudeChars ((toS16 t).natAbs / 16) ((toS16 t).natAbs % 16) := by
  rw [printTemp, List.append_assoc]
  rfl

theorem wholeChars_ne_nil (n : ℕ) : wholeChars n ≠ [] := by
  simp [wholeChars]

theorem fracChars_ne_nil (d : ℕ) : fracChars d ≠ [] := by
  simp [fracChars]

/-- The decimal point parts the digits. -/
theorem readDecimal_magnitudeChars (n d : ℕ) :
    readDecimal (magnitudeChars n d) =
      (readDigits 10 decDigit 0 (wholeChars n ++ fracChars d)).map fun m => (m, (fracChars d).length) := by
  have hdigits : ∀ c ∈ wholeChars n, decide (c ≠ '.') = true := fun c hc => by
    obtain ⟨e, rfl⟩ := wholeChars_digits hc
    simpa using (decChar_ordinary e).2.1
  have hwhole : (magnitudeChars n d).takeWhile (fun c => c ≠ '.') = wholeChars n := by
    rw [magnitudeChars, List.takeWhile_append_of_pos hdigits]
    simp
  have hfrac : ((magnitudeChars n d).dropWhile fun c => c ≠ '.').drop 1 = fracChars d := by
    rw [magnitudeChars, List.dropWhile_append_of_pos hdigits]
    simp
  simp only [readDecimal, hwhole, hfrac, wholeChars_ne_nil, fracChars_ne_nil, and_false, or_self, if_false]

/-- A printed magnitude with the sign given to it is read back as the sixteenths it prints. -/
theorem tempWord_magnitudeChars (negative : Bool) {x : ℤ} (hlo : -32768 ≤ x) (hhi : x ≤ 32767)
    (hsign : (if negative then -(x.natAbs : ℤ) else x.natAbs) = x) :
    ((readDecimal (magnitudeChars (x.natAbs / 16) (x.natAbs % 16))).bind fun p => tempWord negative p.1 p.2) =
      some (toU16 x) := by
  obtain ⟨hread, hexact⟩ := readDigits_fracChars (x.natAbs % 16) (Nat.mod_lt _ (by decide))
  rw [readDecimal_magnitudeChars, readDigits_append, readDigits_wholeChars (by omega), Option.bind_some, readDigits_acc,
    hread]
  generalize x.natAbs % 16 * 10 ^ (fracChars (x.natAbs % 16)).length / 16 = f at hexact
  generalize (fracChars (x.natAbs % 16)).length = k at hexact
  have hscaled : 16 * (10 ^ k * (x.natAbs / 16) + f) = x.natAbs * 10 ^ k := by
    calc 16 * (10 ^ k * (x.natAbs / 16) + f) = (16 * (x.natAbs / 16) + x.natAbs % 16) * 10 ^ k := by
          rw [mul_add, hexact]; ring
      _ = x.natAbs * 10 ^ k := by rw [Nat.div_add_mod]
  have hdiv : x.natAbs * 10 ^ k / 10 ^ k = x.natAbs := Nat.mul_div_cancel _ (by positivity)
  simp only [Option.map_some, Option.bind_some, tempWord, hscaled, Nat.mul_mod_left, hdiv, hsign, hlo, hhi, ne_eq,
    not_true, if_false, and_self, if_true]

/-- An unsigned decimal temperature begins with a digit. -/
theorem readTemp_magnitudeChars (n d : ℕ) :
    readTemp (magnitudeChars n d) = (readDecimal (magnitudeChars n d)).bind fun p => tempWord false p.1 p.2 := by
  obtain ⟨c, cs, hcs⟩ := List.exists_cons_of_ne_nil (wholeChars_ne_nil n)
  obtain ⟨e, rfl⟩ := wholeChars_digits (n := n) (c := c) (by simp [hcs])
  obtain ⟨-, -, hhash, hminus, hplus⟩ := decChar_ordinary e
  rw [magnitudeChars, hcs, List.cons_append]
  unfold readTemp
  split <;> simp_all

theorem toU16_toS16 (t : Half) : toU16 (toS16 t) = t := BitVec.ofInt_toInt

/-- The assembler reads a printed temperature back (30_encoding.md R73, R76). -/
theorem readTemp_printTemp (t : Half) : readTemp (printTemp t) = some t := by
  have hlo : -32768 ≤ toS16 t := BitVec.le_toInt t
  have hhi : toS16 t < 32768 := BitVec.toInt_lt
  rw [printTemp_eq]
  split
  case isTrue h =>
    show ((readDecimal (magnitudeChars _ _)).bind fun p => tempWord true p.1 p.2) = _
    rw [tempWord_magnitudeChars true hlo (by omega) (by rw [if_pos rfl]; omega), toU16_toS16]
  case isFalse h =>
    rw [List.nil_append, readTemp_magnitudeChars,
      tempWord_magnitudeChars false hlo (by omega) (by rw [if_neg (by decide)]; omega), toU16_toS16]

theorem spells_printTemp (t : Half) : Spells (printTemp t) (printTemp t) := by
  have hmagnitude : ∀ c ∈ magnitudeChars ((toS16 t).natAbs / 16) ((toS16 t).natAbs % 16), IsPlain c := by
    simp only [magnitudeChars, List.forall_mem_append, List.forall_mem_cons]
    refine ⟨fun c hc => ?_, by decide, fun c hc => ?_⟩
    · obtain ⟨e, rfl⟩ := wholeChars_digits hc
      exact (decChar_ordinary e).1
    · obtain ⟨e, rfl⟩ := fracChars_digits hc
      exact (decChar_ordinary e).1
  rw [printTemp_eq]
  refine spells_self (by simp [magnitudeChars]) (List.forall_mem_append.mpr ⟨?_, hmagnitude⟩)
  split
  · exact List.forall_mem_singleton.mpr (by decide)
  · exact List.forall_mem_nil _

end Sys2Proof.Machine
end

section
/-! Every line the disassembler prints is assembled to its word (30_encoding.md R72 to R76). -/

namespace Sys2Proof.Machine

theorem readFlag_flagName (k : Flag) : readFlag (flagName k) = some k := by
  cases k <;> decide

theorem readLim_limName (l : LimitReg) : readLim (limName l) = some l := by
  cases l <;> decide

theorem spells_flagName (k : Flag) : Spells (flagName k) (flagName k) := by
  cases k <;> decide

theorem spells_limName (l : LimitReg) : Spells (limName l) (limName l) := by
  cases l <;> decide

/-- A mnemonic whose one operand is read back as a value gives the command of that value. -/
theorem assemble_of_asm1 {α : Type} {m text token : List Char} {read : List Char → Option α} {f : α → Instr} {v : α}
    (hm : Spells m m) (htext : Spells text token) (hread : read token = some v)
    (hasm : asm1 m token = (read token).map fun v => encode (f v)) :
    assemble (m ++ ' ' :: text) = .command (encode (f v)) := by
  rw [assemble_oneOperand hm htext, hasm, hread]
  rfl

/-- A mnemonic with a name and a printed temperature gives the command of that temperature. -/
theorem assemble_of_asm2 {m a : List Char} {f : Half → Instr} (t : Half) (hm : Spells m m) (ha : Spells a a)
    (hasm : ∀ b, asm2 m a b = (readTemp b).map fun t => encode (f t)) :
    assemble (m ++ ' ' :: a ++ [',', ' '] ++ printTemp t) = .command (encode (f t)) := by
  rw [assemble_twoOperands hm ha (spells_printTemp t), hasm, readTemp_printTemp]
  rfl

theorem assemble_setf (k : Flag) : assemble (mnSetf ++ ' ' :: flagName k) = .command (encode (setfOf k)) :=
  assemble_of_asm1 (by decide) (spells_flagName k) (readFlag_flagName k) rfl

theorem assemble_clrf (k : Flag) : assemble (mnClrf ++ ' ' :: flagName k) = .command (encode (clrfOf k)) :=
  assemble_of_asm1 (by decide) (spells_flagName k) (readFlag_flagName k) rfl

theorem assemble_getlim (l : LimitReg) : assemble (mnGetlim ++ ' ' :: limName l) = .command (encode (getlimOf l)) :=
  assemble_of_asm1 (by decide) (spells_limName l) (readLim_limName l) rfl

theorem assemble_setlim (l : LimitReg) (t : Half) :
    assemble (mnSetlim ++ ' ' :: limName l ++ [',', ' '] ++ printTemp t) = .command (encode (setlimOf t l)) := by
  refine assemble_of_asm2 (f := fun t => setlimOf t l) t (by decide) (spells_limName l) fun b => ?_
  show (readLim (limName l)).bind (fun l => (readTemp b).map fun t => encode (setlimOf t l)) = _
  rw [readLim_limName]
  rfl

/-- The assembler reads a printed command back (30_encoding.md R72, R76). -/
theorem assemble_printInstr (i : Instr) : assemble (printInstr i) = .command (encode i) := by
  cases i
  case deca r => exact assemble_of_asm1 (by decide) (spells_hexLiteral 4 _) (readRaw_hexChars r) rfl
  case dect r => exact assemble_of_asm1 (by decide) (spells_hexLiteral 4 _) (readRaw_hexChars r) rfl
  case encA t => exact assemble_of_asm2 (m := mnEnc) (a := ['A']) t (by decide) (by decide) fun _ => rfl
  case encT t => exact assemble_of_asm2 (m := mnEnc) (a := ['T']) t (by decide) (by decide) fun _ => rfl
  case setfAlertMode => exact assemble_setf .alertMode
  case setfAlertPol => exact assemble_setf .alertPol
  case setfAlertSel => exact assemble_setf .alertSel
  case setfAlertCtrl => exact assemble_setf .alertCtrl
  case setfAlertStat => exact assemble_setf .alertStat
  case setfIntClear => exact assemble_setf .intClear
  case setfWinLock => exact assemble_setf .winLock
  case setfCritLock => exact assemble_setf .critLock
  case setfShutdown => exact assemble_setf .shutdown
  case clrfAlertMode => exact assemble_clrf .alertMode
  case clrfAlertPol => exact assemble_clrf .alertPol
  case clrfAlertSel => exact assemble_clrf .alertSel
  case clrfAlertCtrl => exact assemble_clrf .alertCtrl
  case clrfAlertStat => exact assemble_clrf .alertStat
  case clrfIntClear => exact assemble_clrf .intClear
  case clrfWinLock => exact assemble_clrf .winLock
  case clrfCritLock => exact assemble_clrf .critLock
  case clrfShutdown => exact assemble_clrf .shutdown
  case sethyst t => exact assemble_of_asm1 (by decide) (spells_printTemp t) (readTemp_printTemp t) rfl
  case setres t => exact assemble_of_asm1 (by decide) (spells_printTemp t) (readTemp_printTemp t) rfl
  case getres => exact assemble_noOperand (m' := mnGetres) (by decide)
  case islock => exact assemble_noOperand (m' := mnIslock) (by decide)
  case setlimUpper t => exact assemble_setlim .upper t
  case setlimLower t => exact assemble_setlim .lower t
  case setlimCrit t => exact assemble_setlim .crit t
  case getlimUpper => exact assemble_getlim .upper
  case getlimLower => exact assemble_getlim .lower
  case getlimCrit => exact assemble_getlim .crit
  case getamb => exact assemble_noOperand (m' := mnGetamb) (by decide)
  case getalert => exact assemble_noOperand (m' := mnGetalert) (by decide)
  case beginCheck => exact assemble_noOperand (m' := mnBegin) (by decide)

/-- The assembler reads `.word` with eight digits back (30_encoding.md R75). -/
theorem assemble_wordLiteral (w : Word) :
    assemble (['.', 'w', 'o', 'r', 'd'] ++ ' ' :: '0' :: 'x' :: hexChars 8 w.toNat) = .command w := by
  have hread : readHex 8 8 ('0' :: 'X' :: hexChars 8 w.toNat) = some w.toNat := by
    rw [readHex_hexChars _ (by decide) (by decide), Nat.mod_eq_of_lt (show w.toNat < 16 ^ 8 from w.isLt)]
  rw [assemble_oneOperand (m' := mnWord) (by decide) (spells_hexLiteral 8 w.toNat)]
  show asmOf ((readHex 8 8 _).map (BitVec.ofNat 32)) = _
  rw [hread, Option.map_some, BitVec.ofNat_toNat, BitVec.setWidth_eq]
  rfl

/-- Settles O54: a legal word is printed as its command, whose encoding it is, and any other as `.word`. -/
theorem assemblerReadsTheDisassembly : Obligations.AssemblerReadsTheDisassembly := by
  unfold Obligations.AssemblerReadsTheDisassembly
  intro w
  unfold disassemble
  cases h : decode w with
  | ok i => exact (assemble_printInstr i).trans (congrArg AsmLine.command (encode_of_decode h))
  | error e => exact assemble_wordLiteral w

end Sys2Proof.Machine
end

section
/-! `decode` as sign and magnitude (40_codec.md R78 to R80, R88): both styles are one mask apart. -/

namespace Sys2Proof.Machine

/-! ### Sign and magnitude -/

/-- The bits of a raw value that carry its magnitude in a style (40_codec.md R78). -/
def magnitudeMask : Style → Half
  | .ambient => 0x0FFF
  | .threshold => 0x0FFC

/-- The magnitude of a raw value, in sixteenths of a degree. -/
def magnitude (raw : Half) (style : Style) : ℕ := (raw &&& magnitudeMask style).toNat

theorem magnitude_ambient (raw : Half) : magnitude raw .ambient = raw.toNat % 4096 := by
  rw [magnitude, BitVec.toNat_and]
  exact Nat.and_two_pow_sub_one_eq_mod _ 12

theorem magnitude_threshold (raw : Half) : magnitude raw .threshold = raw.toNat / 4 % 1024 * 4 := by
  rw [magnitude, BitVec.toNat_and]
  exact and_0x0FFC _

theorem magnitude_le (raw : Half) (style : Style) : magnitude raw style ≤ 4095 := by
  cases style with
  | ambient => rw [magnitude_ambient]; omega
  | threshold => rw [magnitude_threshold]; omega

theorem nibble_eq (raw : Half) : nibble raw = raw.toNat / 256 % 16 := by
  rw [nibble, BitVec.toNat_ushiftRight, BitVec.toNat_and, Nat.shiftRight_and_distrib, Nat.shiftRight_eq_div_pow]
  exact Nat.and_two_pow_sub_one_eq_mod _ 4

theorem fbyte_ambient (raw : Half) : fbyte raw .ambient = raw.toNat % 256 := by
  rw [fbyte, BitVec.toNat_and]
  exact Nat.and_two_pow_sub_one_eq_mod _ 8

theorem fbyte_threshold (raw : Half) : fbyte raw .threshold = raw.toNat % 256 / 4 * 4 := by
  have hmask : raw &&& 0x00FC = raw &&& 0x00FF &&& 0x0FFC := (BitVec.and_assoc raw 0x00FF 0x0FFC).symm
  rw [fbyte, hmask, BitVec.toNat_and, show (raw &&& 0x00FF).toNat = _ from fbyte_ambient raw,
    show (0x0FFC : Half).toNat = 0x0FFC from rfl, and_0x0FFC]
  omega

/-- The nibble and the fractional byte side by side are the magnitude (40_codec.md R78, R79). -/
theorem nibble_fbyte (raw : Half) (style : Style) : nibble raw * 256 + fbyte raw style = magnitude raw style := by
  cases style with
  | ambient => rw [nibble_eq, fbyte_ambient, magnitude_ambient]; omega
  | threshold => rw [nibble_eq, fbyte_threshold, magnitude_threshold]; omega

/-- `decode` is sign and magnitude, in either style (40_codec.md R79). -/
theorem decodeTemp_eq (raw : Half) (style : Style) :
    decodeTemp raw style = if raw.getLsbD 12 then -(magnitude raw style : ℤ) else magnitude raw style := by
  rw [decodeTemp, nibble_fbyte, signBit]

theorem natAbs_decodeTemp (raw : Half) (style : Style) : (decodeTemp raw style).natAbs = magnitude raw style := by
  rw [decodeTemp_eq]
  split
  · exact Int.natAbs_neg _
  · rfl

theorem decodeTemp_bounds (raw : Half) (style : Style) : -4095 ≤ decodeTemp raw style ∧ decodeTemp raw style ≤ 4095 := by
  have hle := magnitude_le raw style
  rw [← natAbs_decodeTemp] at hle
  omega

theorem magnitude_eq_zero_iff (raw : Half) (style : Style) : magnitude raw style = 0 ↔ raw &&& magnitudeMask style = 0 := by
  rw [BitVec.toNat_eq]
  rfl

/-- A raw value is zero exactly when its magnitude is, whatever its sign (40_codec.md R80, R88). -/
theorem decodeTemp_eq_zero_iff (raw : Half) (style : Style) :
    decodeTemp raw style = 0 ↔ raw &&& magnitudeMask style = 0 := by
  rw [← magnitude_eq_zero_iff, ← natAbs_decodeTemp, Int.natAbs_eq_zero]

theorem decodeTemp_neg_iff (raw : Half) (style : Style) :
    decodeTemp raw style < 0 ↔ raw.getLsbD 12 = true ∧ raw &&& magnitudeMask style ≠ 0 := by
  rw [ne_eq, ← magnitude_eq_zero_iff, decodeTemp_eq]
  split
  case isTrue h => simp only [h, true_and]; omega
  case isFalse h => exact iff_of_false (by omega) fun hneg => h hneg.1

/-- A raw value with no magnitude in the ambient style has none in the threshold style. -/
theorem and_magnitudeMask_eq_zero {raw : Half} (h : raw &&& 0x0FFF = 0) (style : Style) :
    raw &&& magnitudeMask style = 0 := by
  cases style with
  | ambient => exact h
  | threshold =>
    calc raw &&& 0x0FFC = raw &&& 0x0FFF &&& 0x0FFC := (BitVec.and_assoc raw 0x0FFF 0x0FFC).symm
      _ = 0 := by rw [h]; exact BitVec.zero_and

/-- Settles O8, by sign and magnitude in each style. -/
theorem decodeIsSignAndMagnitude : Obligations.DecodeIsSignAndMagnitude := by
  unfold Obligations.DecodeIsSignAndMagnitude
  intro raw
  obtain ⟨hlo, hhi⟩ := decodeTemp_bounds raw .ambient
  refine ⟨decodeTemp_eq raw .ambient, decodeTemp_eq raw .threshold, hlo, hhi, fun style h => ?_⟩
  have hzero := (decodeTemp_eq_zero_iff raw style).mpr (and_magnitudeMask_eq_zero h style)
  exact ⟨hzero, by rw [hzero]; rfl⟩

/-! ### The laws of `decode` -/

/-- `decode` looks at the sign and at the masked magnitude only (40_codec.md R88). -/
theorem decodeTemp_congr {r r' : Half} {style style' : Style} (hsign : r.getLsbD 12 = r'.getLsbD 12)
    (hmag : r &&& magnitudeMask style = r' &&& magnitudeMask style') : decodeTemp r style = decodeTemp r' style' := by
  rw [decodeTemp_eq, decodeTemp_eq, magnitude, magnitude, hsign, hmag]

/-- Bits beside the sign and the magnitude do not count: a mask that keeps those two leaves the value as it is. -/
theorem decodeTemp_and {mask : Half} {style : Style} (r : Half) (hsign : mask.getLsbD 12 = true)
    (hmag : mask &&& magnitudeMask style = magnitudeMask style) : decodeTemp (r &&& mask) style = decodeTemp r style :=
  decodeTemp_congr (by rw [BitVec.getLsbD_and, hsign, Bool.and_true]) (by rw [BitVec.and_assoc, hmag])

/-- Settles O9: each mask of the laws keeps the sign and the magnitude of its style. -/
theorem decodeLaws : Obligations.DecodeLaws := by
  unfold Obligations.DecodeLaws
  refine ⟨fun r r' => ⟨fun h => ?_, fun h => ?_⟩, fun r => ⟨?_, ?_, ?_, decodeTemp_eq_zero_iff r .ambient⟩⟩
  · rw [← decodeTemp_and r (mask := 0x1FFF) rfl rfl, h, decodeTemp_and r' rfl rfl]
  · rw [← decodeTemp_and r (mask := 0x1FFC) rfl rfl, h, decodeTemp_and r' rfl rfl]
  · rw [natAbs_decodeTemp]
    exact magnitude_le r .ambient
  · rw [natAbs_decodeTemp, magnitude_threshold]
    omega
  · refine decodeTemp_congr ?_ (BitVec.and_assoc r 0xFFFC 0x0FFF).symm
    exact (BitVec.getLsbD_and.trans (Bool.and_true _)).symm

end Sys2Proof.Machine
end

section
/-! `encode` as sign and magnitude, and its laws (40_codec.md R81 to R83, R87, R89). -/

namespace Sys2Proof.Machine

/-! ### Sign and magnitude -/

/-- The sign bit of an encoding, given whether the temperature is below zero (40_codec.md R78). -/
def signField (negative : Prop) [Decidable negative] : Half := if negative then 0x1000 else 0x0000

theorem getLsbD_signField (negative : Prop) [Decidable negative] :
    (signField negative).getLsbD 12 = decide negative := by
  unfold signField
  split <;> simp [*]

/-- The sign bit is in none of the fields beside it. -/
theorem signField_and {mask : Half} (negative : Prop) [Decidable negative] (h : 0x1000 &&& mask = 0) :
    signField negative &&& mask = 0 := by
  unfold signField
  split
  · exact h
  · exact BitVec.zero_and

/-- Bit 12 alone is the sign field of a raw value (40_codec.md R78). -/
theorem and_0x1000 (raw : Half) : raw &&& 0x1000 = signField (raw.getLsbD 12 = true) :=
  BitVec.and_twoPow raw 12

/-- The sign bit is above the whole degrees. -/
theorem extractLsb'_signField (negative : Prop) [Decidable negative] :
    (signField negative).extractLsb' 4 8 = 0#8 := by
  unfold signField
  split <;> rfl

/-- The port's encode on the bits: the magnitude field and the sign (40_codec.md R82). -/
theorem encodeTemp_eq (t : Half) :
    encodeTemp t = BitVec.ofNat 16 (toS16 t).natAbs &&& 0x0FFC ||| signField (toS16 t < 0) := by
  unfold encodeTemp signField
  rw [BitVec.ofNat_or, BitVec.ofNat_and]
  split <;> rfl

/-- The exact encode on the bits (40_codec.md R81). -/
theorem encodeExact_eq_or_signField (t : ℚ) :
    encodeExact t = BitVec.ofNat 16 (sixteenths t) &&& 0x0FFC ||| signField (t < 0) := by
  rw [encodeExact_eq, signField]
  split <;> simp [BitVec.ofNat_or, BitVec.ofNat_and]

theorem celsius_neg_iff (t : Half) : celsius t < 0 ↔ toS16 t < 0 := by
  rw [celsius, div_neg_iff]
  norm_num

theorem sixteenths_celsius (t : Half) : sixteenths (celsius t) = (toS16 t).natAbs := by
  have hcast : 16 * |celsius t| = ((toS16 t).natAbs : ℚ) := by
    rw [celsius, abs_div, Nat.cast_natAbs, Int.cast_abs, abs_of_pos (by norm_num : (0 : ℚ) < 16)]
    ring
  rw [sixteenths, hcast, Nat.floor_natCast]

/-- Settles O10: a port word is a whole number of sixteenths, of its value's sign. -/
theorem portEncodeIsExactEncode : Obligations.PortEncodeIsExactEncode := by
  unfold Obligations.PortEncodeIsExactEncode
  intro t
  simp only [encodeTemp_eq, encodeExact_eq_or_signField, sixteenths_celsius, celsius_neg_iff]

/-- Settles O13: bits 11:4 of the magnitude field are the sixteenths from the fourth bit on, eight of them. -/
theorem encodeOverflowsModulo256 : Obligations.EncodeOverflowsModulo256 := by
  unfold Obligations.EncodeOverflowsModulo256
  intro t
  have habs : (if t < 0 then -t else t) = |t| := by
    split
    case isTrue h => exact (abs_of_neg h).symm
    case isFalse h => exact (abs_of_nonneg (not_lt.mp h)).symm
  have hfield : (encodeExact t).extractLsb' 4 8 = (BitVec.ofNat 16 (sixteenths t)).extractLsb' 4 8 := by
    rw [encodeExact_eq_or_signField, BitVec.extractLsb'_or, BitVec.extractLsb'_and, extractLsb'_signField, BitVec.or_zero]
    exact BitVec.and_allOnes
  rw [habs, wholeDegrees_eq, hfield, BitVec.extractLsb'_toNat, BitVec.toNat_ofNat, Nat.shiftRight_eq_div_pow]
  omega

/-! ### The laws of `encT` -/

/-- The bits of an encoding beside its sign are bits of the magnitude field. -/
theorem encodeTemp_and {mask : Half} (t : Half) (h : 0x1000 &&& mask = 0) :
    encodeTemp t &&& mask = BitVec.ofNat 16 (toS16 t).natAbs &&& (0x0FFC &&& mask) := by
  rw [encodeTemp_eq, BitVec.and_or_distrib_right, signField_and _ h, BitVec.and_assoc]
  exact BitVec.or_zero

theorem getLsbD_encodeTemp (t : Half) : (encodeTemp t).getLsbD 12 = decide (toS16 t < 0) := by
  rw [encodeTemp_eq, BitVec.getLsbD_or, getLsbD_signField, BitVec.getLsbD_and,
    show (0x0FFC : Half).getLsbD 12 = false from rfl, Bool.and_false, Bool.false_or]

theorem magnitude_encodeTemp (t : Half) : magnitude (encodeTemp t) .threshold = (toS16 t).natAbs / 4 % 1024 * 4 := by
  have hlo : -32768 ≤ toS16 t := BitVec.le_toInt t
  have hhi : toS16 t < 32768 := BitVec.toInt_lt
  have hmask : magnitudeMask .threshold = 0x0FFC &&& magnitudeMask .threshold := rfl
  rw [magnitude, encodeTemp_and t rfl, ← hmask, ← magnitude, magnitude_threshold, BitVec.toNat_ofNat]
  omega

/-- Settles O11: the fields of an encoding are its sign and its magnitude in whole quarters. -/
theorem encodeLaws : Obligations.EncodeLaws := by
  unfold Obligations.EncodeLaws
  intro t
  refine ⟨?_, ?_, ?_, fun h => ⟨?_, ?_⟩⟩
  · rw [encodeTemp_and t rfl]
    exact BitVec.and_zero
  · rw [getLsbD_encodeTemp, decide_eq_true_eq]
  · rw [natAbs_decodeTemp, magnitude_encodeTemp]
    omega
  · rw [natAbs_decodeTemp, magnitude_encodeTemp]
    omega
  · have hmag : (toS16 t).natAbs / 4 % 1024 * 4 = (toS16 t).natAbs / 4 * 4 := by omega
    rw [decodeTemp_eq, getLsbD_encodeTemp, magnitude_encodeTemp, hmag]
    obtain h | h | h := lt_trichotomy (toS16 t) 0
    · simp [h, Int.sign_eq_neg_one_of_neg h]
    · simp [h]
    · simp [h.not_gt, Int.sign_eq_one_of_pos h]

/-! ### The round trip -/

/-- Encoding a decoded raw value keeps its quarters, and its sign unless its magnitude is zero (40_codec.md R87). -/
theorem encodeTemp_toU16_decodeTemp (r : Half) (style : Style) :
    encodeTemp (toU16 (decodeTemp r style)) =
      r &&& 0x0FFC ||| signField (r.getLsbD 12 = true ∧ r &&& magnitudeMask style ≠ 0) := by
  obtain ⟨hlo, hhi⟩ := decodeTemp_bounds r style
  rw [encodeTemp_eq, toS16_toU16 (by omega) (by omega)]
  simp only [natAbs_decodeTemp, decodeTemp_neg_iff, magnitude, BitVec.ofNat_toNat, BitVec.setWidth_eq, BitVec.and_assoc]
  cases style <;> rfl

/-- Settles O12: where bits 15:13 and 1:0 are clear, the quarters and the sign are the whole value, and a magnitude of zero
under a set sign bit leaves only negative zero. -/
theorem codecRoundTrip : Obligations.CodecRoundTrip := by
  unfold Obligations.CodecRoundTrip
  intro r
  refine ⟨encodeTemp_toU16_decodeTemp r .ambient, encodeTemp_toU16_decodeTemp r .threshold, fun hclear hne => ?_⟩
  have hfields : r &&& 0x0FFC ||| signField (r.getLsbD 12 = true) = r := by
    calc r &&& 0x0FFC ||| signField (r.getLsbD 12 = true) = r &&& 0x1FFC ||| r &&& 0xE003 := by
          rw [← and_0x1000, ← BitVec.and_or_distrib_left, hclear]
          exact BitVec.or_zero.symm
      _ = r := by
          rw [← BitVec.and_or_distrib_left]
          exact BitVec.and_allOnes
  have hmag : r.getLsbD 12 = true → r &&& magnitudeMask .ambient ≠ 0 := fun hbit hzero => hne <| by
    rw [← hfields, show r &&& 0x0FFC = 0 from and_magnitudeMask_eq_zero hzero .threshold, hbit]
    rfl
  rw [encodeTemp_toU16_decodeTemp]
  simpa only [and_iff_left_of_imp hmag] using hfields

end Sys2Proof.Machine
end

section
/-! DECA, DECT and ENC: their words, their answers and their illegal selectors (40_codec.md R84 to R86, R90). -/

namespace Sys2Proof.Machine

/-- A word with a selector out of its opcode's range is illegal (30_encoding.md R66, R67). -/
theorem endsIllegal_of_sel {opc sel : Byte} (opnd : Half) (h : Cmd.maxSel opc.toNat < sel.toNat) :
    EndsIllegal ((opc ++ sel) ++ opnd) := by
  refine endsIllegal_of_illegal ?_
  rw [show fieldsOf ((opc ++ sel) ++ opnd) = ⟨opc, sel, opnd⟩ from fieldsOf_wordOf ⟨opc, sel, opnd⟩]
  exact Cmd.legal_eq_false_of_sel h

/-- A word whose high half is given as one number decodes by its fields (30_encoding.md R61). -/
theorem decode_append {head : Half} {opc sel : Byte} (opnd : Half) (h : head = opc ++ sel) :
    decode (head ++ opnd) = decodeFields ⟨opc, sel, opnd⟩ := by
  subst h
  exact decode_wordOf ⟨opc, sel, opnd⟩

/-- A command that answers at once, accepted in IDLE (10_state.md R22). -/
theorem exec_idle_respond {i : Instr} {d : Half} {s : State} (hi : programOf i = .respond d) (hs : s.st = .idle) :
    exec i s = .next { s with st := .resp, rspStatus := 0, rspData := d } := by
  rw [exec_idle hs, hi]
  rfl

/-- Settles O15: DECA answers at once with the ambient sign and magnitude. -/
theorem decaAnswersTheAmbientDecode : Obligations.DecaAnswersTheAmbientDecode := by
  unfold Obligations.DecaAnswersTheAmbientDecode
  refine fun raw => ⟨decode_append (opc := 0x01) (sel := 0x00) raw rfl, fun s hs => ?_, fun sel h => ?_⟩
  · exact exec_idle_respond (congrArg (fun x => Program.respond (toU16 x)) (decodeTemp_eq raw .ambient)) hs
  · exact endsIllegal_of_sel raw (toNat_pos_of_ne_zero h)

/-- Settles O16: DECT answers at once with the threshold sign and magnitude. -/
theorem dectAnswersTheThresholdDecode : Obligations.DectAnswersTheThresholdDecode := by
  unfold Obligations.DectAnswersTheThresholdDecode
  refine fun raw => ⟨decode_append (opc := 0x02) (sel := 0x00) raw rfl, fun s hs => ?_, fun sel h => ?_⟩
  · exact exec_idle_respond (congrArg (fun x => Program.respond (toU16 x)) (decodeTemp_eq raw .threshold)) hs
  · exact endsIllegal_of_sel raw (toNat_pos_of_ne_zero h)

/-- Settles O17: both styles run the one pseudocode, which answers the encoding at once. -/
theorem encAnswersTheEncodedTemperature : Obligations.EncAnswersTheEncodedTemperature := by
  unfold Obligations.EncAnswersTheEncodedTemperature
  refine fun t => ⟨decode_append (opc := 0x03) (sel := 0x00) t rfl,
    decode_append (opc := 0x03) (sel := 0x01) t rfl, fun i hi s hs => ?_, fun sel h => ?_⟩
  · have hprogram : programOf i = .respond (encodeTemp t) := by
      simp only [List.mem_cons, List.not_mem_nil, or_false] at hi
      obtain rfl | rfl := hi <;> rfl
    exact exec_idle_respond hprogram hs
  · exact endsIllegal_of_sel t h

end Sys2Proof.Machine
end

section
/-! What the edges of a command with transactions do, by its pseudocode (10_state.md R22), and the words its opcode makes
illegal (30_encoding.md R66, R67). -/

namespace Sys2Proof.Machine

/-! ### Illegal words -/

/-- A word with a selector out of its opcode's range, or with an operand its opcode does not allow, is illegal
(30_encoding.md R66, R67). -/
theorem endsIllegal_of_sel_or_opnd {opc sel : Byte} {opnd : Half} (ho : opc.toNat ∈ Cmd.zeroOperandOpcodes)
    (h : Cmd.maxSel opc.toNat < sel.toNat ∨ opnd ≠ 0) : EndsIllegal ((opc ++ sel) ++ opnd) := by
  obtain h | h := h
  · exact endsIllegal_of_sel opnd h
  · refine endsIllegal_of_illegal ?_
    rw [show fieldsOf ((opc ++ sel) ++ opnd) = ⟨opc, sel, opnd⟩ from fieldsOf_wordOf ⟨opc, sel, opnd⟩]
    exact Cmd.legal_eq_false_of_opnd ho h

/-- A word of an opcode that takes neither a selector nor an operand is illegal with either (30_encoding.md R66, R67). -/
theorem endsIllegal_of_bare {opc sel : Byte} {opnd : Half} (hsel : Cmd.maxSel opc.toNat = 0)
    (ho : opc.toNat ∈ Cmd.zeroOperandOpcodes) (h : sel ≠ 0 ∨ opnd ≠ 0) : EndsIllegal ((opc ++ sel) ++ opnd) :=
  endsIllegal_of_sel_or_opnd ho (h.imp_left fun hs => by simpa only [hsel] using toNat_pos_of_ne_zero hs)

/-! ### The edges of a command -/

/-- Every command ends on an error answer (60_exceptions.md R115). -/
theorem endsOnErrorAnswer (i : Instr) : EndsOnErrorAnswer i :=
  fun _ => exec_atErrorAnswer

/-- A command that begins with a transaction offers its request when it is accepted. -/
theorem exec_idle_request {i : Instr} {s : State} (r : Request) (hs : s.st = .idle)
    (hr : (programOf i).request s.cfg.nativeLE = some r) :
    exec i s = .next { s with st := .req, ph := .first, reqOp := r.op, reqAddr := r.addr, reqWdata := r.wdata } := by
  rw [exec_idle hs, runToEffect_request hr]
  rfl

/-- A command that refuses its operand ends when it is accepted. -/
theorem exec_idle_raise {i : Instr} {e : Status} {info : Half} {s : State} (hi : programOf i = .raise e info)
    (hs : s.st = .idle) : exec i s = .next { s with st := .resp, rspStatus := statusCode e, rspData := info } := by
  rw [exec_idle hs, hi]
  rfl

/-- A command that begins with a read keeps the value read and goes on. -/
theorem exec_firstRead {i : Instr} {s : State} {rest : Program} (h : AtFirstAnswer s)
    (hread : (programOf i).isRead = true) (hr : (programOf i).resume s.pins.trRspRdata = some rest) :
    exec i s = .next (runToEffect .second rest { s with old := (programOf i).readValue s.pins.trRspRdata }) := by
  have ⟨_, hph, _, _⟩ := h
  rw [exec_atFirstAnswer h hr, keepOld_read hph hread]

/-- A command that begins with a write goes on with every register as it was. -/
theorem exec_firstWrite {i : Instr} {s : State} {rest : Program} (h : AtFirstAnswer s)
    (hwrite : (programOf i).isRead = false) (hr : (programOf i).resume s.pins.trRspRdata = some rest) :
    exec i s = .next (runToEffect .second rest s) := by
  rw [exec_atFirstAnswer h hr, keepOld_write hwrite]

end Sys2Proof.Machine
end

section
/-! The flag and field commands: read config, modify it, write it back (41_config.md R91 to R96), on any transport and on the
reference device. -/

namespace Sys2Proof.Machine

/-! ### Read-modify-write -/

/-- Read config, write it back modified, answer the new value (41_config.md R92, R93, R96). -/
def modifyConfig (f : Half → Half) : Program :=
  .read16 addrConfig fun old => .write16 addrConfig (f old) (.respond (f old))

/-- What a command that modifies config by `f` does at each of its edges: the conclusion that SETF, CLRF and SETHYST
share. -/
def ModifiesConfig (i : Instr) (f : Half → Half) : Prop :=
  EndsOnErrorAnswer i ∧
  ∀ s : State,
    (s.st = .idle → exec i s =
      .next { s with st := .req, ph := .first, reqOp := .rd16, reqAddr := 0x01, reqWdata := 0x0000 }) ∧
    (AtFirstAnswer s → exec i s =
      .next { s with old := s.pins.trRspRdata, st := .req, ph := .second, reqOp := .wr16, reqAddr := 0x01,
                     reqWdata := wireWord s.cfg.nativeLE (f s.pins.trRspRdata) }) ∧
    (AtSecondAnswer s → exec i s = .next { s with st := .resp, rspStatus := 0, rspData := f s.old })

theorem modifiesConfig_of_program {i : Instr} {f : Half → Half} (hi : programOf i = modifyConfig f) :
    ModifiesConfig i f := by
  refine ⟨endsOnErrorAnswer i, fun s => ⟨fun hs => ?_, fun h => ?_, fun h => ?_⟩⟩
  · exact exec_idle_request ⟨.rd16, addrConfig, 0⟩ hs (by rw [hi]; rfl)
  · rw [exec_firstRead h (by rw [hi]; rfl) (by rw [hi]; rfl), hi]
    rfl
  · rw [exec_atSecondAnswer h (by rw [hi]; rfl) rfl]
    rfl

/-- On the reference device config holds the new value, and no other register is touched (92_eei_decisions.md D26). -/
theorem runOnRef_modifyConfig (le : Bool) (d : RefDevice) (f : Half → Half) :
    (runOnRef le d (modifyConfig f)).2 = ((.ok, f d.config), { d with config := f d.config }) := by
  show ((Status.ok, f d.config), { d with config := wireWord le (wireWord le (f d.config)) }) = _
  rw [wireWord_wireWord]

/-- Settles O55: both commands are a read-modify-write of config. -/
theorem flagCommandsOnTheReferenceDevice : Obligations.FlagCommandsOnTheReferenceDevice := by
  unfold Obligations.FlagCommandsOnTheReferenceDevice
  exact fun le d k => ⟨runOnRef_modifyConfig le d (setFlag k), runOnRef_modifyConfig le d (clearFlag k)⟩

/-! ### SETF and CLRF -/

theorem programOf_setfOf (k : Flag) : programOf (setfOf k) = modifyConfig (setFlag k) := by
  cases k <;> rfl

theorem modifiesConfig_setfOf (k : Flag) : ModifiesConfig (setfOf k) (setFlag k) :=
  modifiesConfig_of_program (programOf_setfOf k)

theorem programOf_clrfOf (k : Flag) : programOf (clrfOf k) = modifyConfig (clearFlag k) := by
  cases k <;> rfl

theorem modifiesConfig_clrfOf (k : Flag) : ModifiesConfig (clrfOf k) (clearFlag k) :=
  modifiesConfig_of_program (programOf_clrfOf k)

/-- A flag command with its word and its flag's mask. -/
def flagRow (op : Flag → Instr) (k : Flag) : Instr × Word × Half := (op k, encode (op k), flagMask k)

/-- Settles O18: each flag's SETF is a read-modify-write of config that sets its bit. -/
theorem setfReadsSetsAndWritesBack : Obligations.SetfReadsSetsAndWritesBack := by
  unfold Obligations.SetfReadsSetsAndWritesBack
  refine ⟨fun p hp => ?_, fun sel opnd h => ?_⟩
  · obtain ⟨k, -, rfl⟩ := List.mem_map.mp (show p ∈ allFlags.map (flagRow setfOf) from hp)
    exact ⟨decode_encode (setfOf k), modifiesConfig_setfOf k⟩
  · exact endsIllegal_of_sel_or_opnd (by decide) h

/-- Settles O19: each flag's CLRF is a read-modify-write of config that clears its bit. -/
theorem clrfReadsClearsAndWritesBack : Obligations.ClrfReadsClearsAndWritesBack := by
  unfold Obligations.ClrfReadsClearsAndWritesBack
  refine ⟨fun p hp => ?_, fun sel opnd h => ?_⟩
  · obtain ⟨k, -, rfl⟩ := List.mem_map.mp (show p ∈ allFlags.map (flagRow clrfOf) from hp)
    exact ⟨decode_encode (clrfOf k), modifiesConfig_clrfOf k⟩
  · exact endsIllegal_of_sel_or_opnd (by decide) h

/-! ### The flag laws -/

theorem getLsbD_setFlag (k : Flag) (o : Half) (i : ℕ) :
    (setFlag k o).getLsbD i = (o.getLsbD i || decide (i = flagIndex k)) := by
  rw [setFlag, BitVec.getLsbD_or, getLsbD_flagMask]

theorem getLsbD_clearFlag (k : Flag) (o : Half) (i : ℕ) :
    (clearFlag k o).getLsbD i = (o.getLsbD i && !decide (i = flagIndex k)) := by
  rw [clearFlag, BitVec.getLsbD_and, BitVec.getLsbD_not, getLsbD_flagMask, ← Bool.and_assoc]
  by_cases hi : i < 16
  · simp [hi]
  · simp [BitVec.getLsbD_of_ge o i (by omega)]

theorem flagIndex_injective : Function.Injective flagIndex := by
  intro j k
  cases j <;> cases k <;> decide

/-- Clearing a flag forgets whether it was set (41_config.md R94). -/
theorem clearFlag_setFlag (k : Flag) (o : Half) : clearFlag k (setFlag k o) = clearFlag k o := by
  rw [clearFlag, setFlag, BitVec.and_or_distrib_right, BitVec.and_not_self]
  exact BitVec.or_zero

/-- Clearing a flag keeps the value exactly when the flag was clear. -/
theorem clearFlag_eq_self_iff (k : Flag) (o : Half) : clearFlag k o = o ↔ o.getLsbD (flagIndex k) = false := by
  constructor
  · intro h
    rw [← h, getLsbD_clearFlag]
    simp
  · intro h
    apply BitVec.eq_of_getLsbD_eq
    intro i hi
    rw [getLsbD_clearFlag]
    by_cases hk : i = flagIndex k <;> simp [hk, h]

theorem setFlag_setFlag (k : Flag) (o : Half) : setFlag k (setFlag k o) = setFlag k o := by
  rw [setFlag, setFlag, BitVec.or_assoc, BitVec.or_self]

theorem clearFlag_clearFlag (k : Flag) (o : Half) : clearFlag k (clearFlag k o) = clearFlag k o := by
  rw [clearFlag, clearFlag, BitVec.and_assoc, BitVec.and_self]

/-- Settles O20: setting and clearing a flag are an or and an and with its one bit. -/
theorem flagLaws : Obligations.FlagLaws := by
  unfold Obligations.FlagLaws
  intro o k
  refine ⟨clearFlag_setFlag k o, ?_, setFlag_setFlag k o, clearFlag_clearFlag k o, wireWord_little_eq_branches o,
    fun j hjk => ?_⟩
  · rw [clearFlag_setFlag, clearFlag_eq_self_iff]
  · have hindex : flagIndex j ≠ flagIndex k := flagIndex_injective.ne hjk
    simp [getLsbD_setFlag, getLsbD_clearFlag, hindex]

/-! ### SETHYST -/

/-- The pseudocode of SETHYST with an operand of the table (41_config.md R95, R96). -/
theorem programOf_sethyst {t c : Half} (h : hystCode t = some c) :
    programOf (.sethyst t) = modifyConfig (withHysteresis c) := by
  simp only [programOf, programSethyst, h]
  rfl

theorem modifiesConfig_sethyst {t c : Half} (h : hystCode t = some c) :
    ModifiesConfig (.sethyst t) (withHysteresis c) :=
  modifiesConfig_of_program (programOf_sethyst h)

theorem programOf_sethyst_of_none {t : Half} (h : hystCode t = none) :
    programOf (.sethyst t) = .raise .invalidArgument 0x0000 := by
  simp only [programOf, programSethyst, h]

theorem hystCode_eq_none {t : Half} (h : t ∉ ([0x0000, 0x0018, 0x0030, 0x0060] : List Half)) : hystCode t = none := by
  simp only [List.mem_cons, List.not_mem_nil, or_false, not_or, ← BitVec.toNat_inj] at h
  unfold hystCode
  split
  case h_5 => rfl
  all_goals simp_all

/-- The field values of the legal operands (41_config.md R95). -/
theorem hystCode_of_mem {p : Half × Half}
    (hp : p ∈ [((0x0000 : Half), (0x0000 : Half)), (0x0018, 0x0200), (0x0030, 0x0400), (0x0060, 0x0600)]) :
    ∃ c, hystCode p.1 = some c ∧ p.2 = c <<< 9 := by
  simp only [List.mem_cons, List.not_mem_nil, or_false] at hp
  obtain rfl | rfl | rfl | rfl := hp <;> exact ⟨_, rfl, rfl⟩

/-- Settles O21: a legal operand's code gives a read-modify-write of bits 10:9, and every other operand has no code. -/
theorem sethystSetsTheFieldOrRefusesTheOperand : Obligations.SethystSetsTheFieldOrRefusesTheOperand := by
  unfold Obligations.SethystSetsTheFieldOrRefusesTheOperand
  have hdecode (t : Half) : decode ((0x1200 : Half) ++ t) = .ok (.sethyst t) :=
    decode_append (opc := 0x12) (sel := 0x00) t rfl
  refine ⟨fun p hp => ⟨hdecode p.1, ?_⟩, fun t ht => ⟨hdecode t, fun s hs => ?_⟩, fun sel opnd h => ?_⟩
  · obtain ⟨c, hc, hfield⟩ := hystCode_of_mem hp
    rw [hfield]
    exact modifiesConfig_sethyst hc
  · exact exec_idle_raise (programOf_sethyst_of_none (hystCode_eq_none ht)) hs
  · exact endsIllegal_of_sel opnd (toNat_pos_of_ne_zero h)

end Sys2Proof.Machine
end

section
/-! SETRES, GETRES and ISLOCK (41_config.md R97 to R100). -/

namespace Sys2Proof.Machine

/-! ### SETRES -/

theorem programOf_setres {t : Half} {c : Byte} (h : resCode t = some c) :
    programOf (.setres t) = .write8 addrResolution c (.respond (zext16 c)) := by
  simp only [programOf, programSetres, h]

theorem programOf_setres_of_none {t : Half} (h : resCode t = none) :
    programOf (.setres t) = .raise .invalidArgument 0x0000 := by
  simp only [programOf, programSetres, h]

theorem resCode_eq_none {t : Half} (h : t ∉ ([0x0008, 0x0004, 0x0002, 0x0001] : List Half)) : resCode t = none := by
  simp only [List.mem_cons, List.not_mem_nil, or_false, not_or, ← BitVec.toNat_inj] at h
  unfold resCode
  split
  case h_5 => rfl
  all_goals simp_all

/-- The codes of the legal operands, as 16-bit values (41_config.md R97). -/
theorem resCode_of_mem {p : Half × Half}
    (hp : p ∈ [((0x0008 : Half), (0x0000 : Half)), (0x0004, 0x0001), (0x0002, 0x0002), (0x0001, 0x0003)]) :
    ∃ c, resCode p.1 = some c ∧ p.2 = zext16 c := by
  simp only [List.mem_cons, List.not_mem_nil, or_false] at hp
  obtain rfl | rfl | rfl | rfl := hp <;> exact ⟨_, rfl, rfl⟩

/-- Settles O22: a legal operand's code is written at once, and every other operand has no code. -/
theorem setresWritesOneByteOrRefusesTheOperand : Obligations.SetresWritesOneByteOrRefusesTheOperand := by
  unfold Obligations.SetresWritesOneByteOrRefusesTheOperand
  have hdecode (t : Half) : decode ((0x1300 : Half) ++ t) = .ok (.setres t) :=
    decode_append (opc := 0x13) (sel := 0x00) t rfl
  refine ⟨fun p hp => ?_, fun t ht => ⟨hdecode t, fun s hs => ?_⟩, fun sel opnd h => ?_⟩
  · obtain ⟨c, hc, hp2⟩ := resCode_of_mem hp
    have hi := programOf_setres hc
    rw [hp2]
    refine ⟨hdecode p.1, endsOnErrorAnswer _, fun s => ⟨fun hs => ?_, fun h => ?_⟩⟩
    · exact exec_idle_request ⟨.wr8, addrResolution, zext16 c⟩ hs (by rw [hi]; rfl)
    · exact exec_firstWrite h (by rw [hi]; rfl) (by rw [hi]; rfl)
  · exact exec_idle_raise (programOf_setres_of_none (resCode_eq_none ht)) hs
  · exact endsIllegal_of_sel opnd (toNat_pos_of_ne_zero h)

/-! ### GETRES -/

/-- A resolution code is answered with its step (41_config.md R99). -/
theorem resume_programGetres_of_some {v : Half} {step : Byte} (h : resStep (lowByte v) = some step) :
    programGetres.resume v = some (.respond (step ++ lowByte v)) := by
  simp only [programGetres, Program.resume, h]

/-- Any other byte is raised as it was read (41_config.md R99). -/
theorem resume_programGetres_of_none {v : Half} (h : resStep (lowByte v) = none) :
    programGetres.resume v = some (.raise .reservedCode (zext16 (lowByte v))) := by
  simp only [programGetres, Program.resume, h]

theorem resStep_eq_none {b : Byte} (h : 3 < b.toNat) : resStep b = none := by
  unfold resStep
  split
  case h_5 => rfl
  all_goals omega

/-- The steps of the four codes, as GETRES answers them (41_config.md R97, R99). -/
theorem resStep_of_mem {p : Byte × Half}
    (hp : p ∈ [((0x00 : Byte), (0x0800 : Half)), (0x01, 0x0401), (0x02, 0x0202), (0x03, 0x0103)]) :
    ∃ step, resStep p.1 = some step ∧ p.2 = step ++ p.1 := by
  simp only [List.mem_cons, List.not_mem_nil, or_false] at hp
  obtain rfl | rfl | rfl | rfl := hp <;> exact ⟨_, rfl, rfl⟩

/-- Settles O23: only the low byte of the answer is looked at, and all of it. -/
theorem getresAnswersStepAndCodeOrReservedCode : Obligations.GetresAnswersStepAndCodeOrReservedCode := by
  unfold Obligations.GetresAnswersStepAndCodeOrReservedCode
  refine ⟨decode_encode .getres, endsOnErrorAnswer _, fun s hs => exec_idle_request ⟨.rd8, addrResolution, 0⟩ hs rfl,
    fun p hp s h hb => ?_, fun s h hb => ?_, fun sel opnd => endsIllegal_of_bare rfl (by decide)⟩
  · obtain ⟨step, hstep, hp2⟩ := resStep_of_mem hp
    rw [hp2, ← hb]
    exact exec_firstRead (i := .getres) h rfl (resume_programGetres_of_some (by rwa [← hb] at hstep))
  · exact exec_firstRead (i := .getres) h rfl (resume_programGetres_of_none (resStep_eq_none hb))

/-! ### ISLOCK -/

/-- The test of the two lock bits, bit by bit (41_config.md R100). -/
theorem lockTest_eq (v : Half) : lockTest v = if v.getLsbD 7 || v.getLsbD 6 then 0x0001 else 0x0000 := by
  have hmask : v &&& 0x00C0 = v &&& BitVec.twoPow 16 7 ||| v &&& BitVec.twoPow 16 6 :=
    BitVec.and_or_distrib_left (x := v) (y := BitVec.twoPow 16 7) (z := BitVec.twoPow 16 6)
  rw [lockTest, hmask, BitVec.and_twoPow, BitVec.and_twoPow]
  cases v.getLsbD 7 <;> cases v.getLsbD 6 <;> rfl

/-- Settles O24: bits 7 and 6 are the two bits of the mask. -/
theorem islockTestsBothLockBits : Obligations.IslockTestsBothLockBits := by
  unfold Obligations.IslockTestsBothLockBits
  refine ⟨decode_encode .islock, endsOnErrorAnswer _, fun s => ⟨fun hs => ?_, fun h => ?_⟩,
    fun sel opnd => endsIllegal_of_bare rfl (by decide)⟩
  · exact exec_idle_request ⟨.rd16, addrConfig, 0⟩ hs rfl
  · rw [← lockTest_eq]
    exact exec_firstRead (i := .islock) h rfl rfl

end Sys2Proof.Machine
end

section
/-! Commands that read one register and answer a function of its value (42_limits_identity.md R105 to R107). -/

namespace Sys2Proof.Machine

/-- What a command that reads one register and answers `f` of its value does at each of its edges: the conclusion that
GETLIM, GETAMB and GETALERT share. -/
def AnswersRead (i : Instr) (addr : Byte) (f : Half → Half) : Prop :=
  EndsOnErrorAnswer i ∧
  ∀ s : State,
    (s.st = .idle → exec i s =
      .next { s with st := .req, ph := .first, reqOp := .rd16, reqAddr := addr, reqWdata := 0x0000 }) ∧
    (AtFirstAnswer s → exec i s =
      .next { s with old := s.pins.trRspRdata, st := .resp, rspStatus := 0, rspData := f s.pins.trRspRdata })

theorem answersRead_of_program {i : Instr} {addr : Byte} {f : Half → Half}
    (hi : programOf i = .read16 addr fun v => .respond (f v)) : AnswersRead i addr f := by
  refine ⟨endsOnErrorAnswer i, fun s => ⟨fun hs => ?_, fun h => ?_⟩⟩
  · exact exec_idle_request ⟨.rd16, addr, 0⟩ hs (by rw [hi]; rfl)
  · rw [exec_firstRead h (by rw [hi]; rfl) (by rw [hi]; rfl), hi]
    rfl

/-- The answer of a decoded read: sign and magnitude of the value read (40_codec.md R79). -/
def signMagnitude (style : Style) (v : Half) : Half :=
  BitVec.ofInt 16 (if v.getLsbD 12 then -(magnitude v style : ℤ) else magnitude v style)

theorem toU16_decodeTemp (v : Half) (style : Style) : toU16 (decodeTemp v style) = signMagnitude style v :=
  congrArg toU16 (decodeTemp_eq v style)

/-- A command that answers a decoded read answers its sign and magnitude. -/
theorem answersRead_signMagnitude {i : Instr} {addr : Byte} {style : Style}
    (hi : programOf i = .read16 addr fun v => .respond (toU16 (decodeTemp v style))) :
    AnswersRead i addr (signMagnitude style) :=
  answersRead_of_program (by simpa only [toU16_decodeTemp] using hi)

end Sys2Proof.Machine
end

section
/-! The limit commands: SETLIM and GETLIM on any transport and on the reference device (42_limits_identity.md R103 to R105,
R110; 92_eei_decisions.md D26). -/

namespace Sys2Proof.Machine

/-! ### The words and the pseudocode of the limit commands -/

/-- The limit registers, in the order of their selectors. -/
def allLimits : List LimitReg := [.upper, .lower, .crit]

/-- The selector of a limit register (42_limits_identity.md R103). -/
def limSel : LimitReg → Byte
  | .upper => 0x00
  | .lower => 0x01
  | .crit => 0x02

theorem decode_setlimOf (l : LimitReg) (t : Half) : decode (((0x20 : Byte) ++ limSel l) ++ t) = .ok (setlimOf t l) := by
  cases l <;> exact decode_append t rfl

theorem programOf_setlimOf (l : LimitReg) (t : Half) : programOf (setlimOf t l) = programSetlim l t := by
  cases l <;> rfl

theorem programOf_getlimOf (l : LimitReg) : programOf (getlimOf l) = programGetlim l := by
  cases l <;> rfl

/-! ### SETLIM and GETLIM -/

/-- SETLIM offers its one write when it is accepted (42_limits_identity.md R104). -/
theorem exec_setlimOf_idle (l : LimitReg) (t : Half) {s : State} (hs : s.st = .idle) :
    exec (setlimOf t l) s = .next { s with st := .req, ph := .first, reqOp := .wr16, reqAddr := limAddr l,
                                           reqWdata := wireWord s.cfg.nativeLE (encodeTemp t) } :=
  exec_idle_request ⟨.wr16, limAddr l, wireWord s.cfg.nativeLE (encodeTemp t)⟩ hs (by rw [programOf_setlimOf]; rfl)

/-- SETLIM answers what it wrote (42_limits_identity.md R104). -/
theorem exec_setlimOf_firstAnswer (l : LimitReg) (t : Half) {s : State} (h : AtFirstAnswer s) :
    exec (setlimOf t l) s = .next { s with st := .resp, rspStatus := 0, rspData := encodeTemp t } :=
  exec_firstWrite (rest := .respond (encodeTemp t)) h (by rw [programOf_setlimOf]; rfl) (by rw [programOf_setlimOf]; rfl)

/-- A limit register's SETLIM, with the head of its words and its address (42_limits_identity.md R103). -/
def setlimRow (l : LimitReg) : (Half → Instr) × Half × Byte := (fun t => setlimOf t l, (0x20 : Byte) ++ limSel l, limAddr l)

/-- A limit register's GETLIM, with its word and its address (42_limits_identity.md R103). -/
def getlimRow (l : LimitReg) : Instr × Word × Byte := (getlimOf l, encode (getlimOf l), limAddr l)

/-- Settles O25: SETLIM of every limit register is one write of the encoding, whatever the operand. -/
theorem setlimWritesTheEncodedTemperature : Obligations.SetlimWritesTheEncodedTemperature := by
  unfold Obligations.SetlimWritesTheEncodedTemperature
  refine ⟨fun p hp t => ?_, fun sel opnd h => endsIllegal_of_sel opnd h⟩
  obtain ⟨l, -, rfl⟩ := List.mem_map.mp (show p ∈ allLimits.map setlimRow from hp)
  exact ⟨decode_setlimOf l t, endsOnErrorAnswer _, fun s => ⟨exec_setlimOf_idle l t, exec_setlimOf_firstAnswer l t⟩⟩

/-- Settles O26: GETLIM of every limit register answers a read in the threshold style. -/
theorem getlimAnswersTheThresholdDecode : Obligations.GetlimAnswersTheThresholdDecode := by
  unfold Obligations.GetlimAnswersTheThresholdDecode
  refine ⟨fun p hp => ?_, fun sel opnd h => endsIllegal_of_sel_or_opnd (by decide) h⟩
  obtain ⟨l, -, rfl⟩ := List.mem_map.mp (show p ∈ allLimits.map getlimRow from hp)
  have ⟨herror, hedges⟩ : AnswersRead (getlimOf l) (limAddr l) (signMagnitude .threshold) :=
    answersRead_signMagnitude (programOf_getlimOf l)
  exact ⟨decode_encode (getlimOf l), herror, hedges⟩

/-! ### The limit registers of the reference device -/

/-- A limit register of the reference device (92_eei_decisions.md D26). -/
def RefDevice.limit (d : RefDevice) : LimitReg → Half
  | .upper => d.upper
  | .lower => d.lower
  | .crit => d.critical

/-- The reference device with one limit register overwritten. -/
def RefDevice.withLimit (d : RefDevice) (v : Half) : LimitReg → RefDevice
  | .upper => { d with upper := v }
  | .lower => { d with lower := v }
  | .crit => { d with critical := v }

theorem limit_withLimit (d : RefDevice) (v : Half) (l k : LimitReg) :
    (d.withLimit v l).limit k = if l = k then v else d.limit k := by
  cases l <;> cases k <;> rfl

theorem limit_withLimit_same (d : RefDevice) (v : Half) (l : LimitReg) : (d.withLimit v l).limit l = v := by
  rw [limit_withLimit, if_pos rfl]

theorem limit_withLimit_of_ne (d : RefDevice) (v : Half) {l k : LimitReg} (h : l ≠ k) :
    (d.withLimit v l).limit k = d.limit k := by
  rw [limit_withLimit, if_neg h]

/-- Overwriting a limit register touches the limit registers only. -/
theorem withLimit_restore (d : RefDevice) (v : Half) (l : LimitReg) :
    { d.withLimit v l with upper := d.upper, lower := d.lower, critical := d.critical } = d := by
  cases l <;> rfl

/-- SETLIM stores the encoding itself: the byte swap of the write is undone on the device (20_memory.md R45). -/
theorem runOnRef_programSetlim (le : Bool) (d : RefDevice) (l : LimitReg) (t : Half) :
    (runOnRef le d (programSetlim l t)).2 = ((.ok, encodeTemp t), d.withLimit (encodeTemp t) l) := by
  calc (runOnRef le d (programSetlim l t)).2
      = ((.ok, encodeTemp t), d.withLimit (wireWord le (wireWord le (encodeTemp t))) l) := by cases l <;> rfl
    _ = ((.ok, encodeTemp t), d.withLimit (encodeTemp t) l) := by rw [wireWord_wireWord]

/-- GETLIM answers the threshold decode of the limit register and changes nothing on the device. -/
theorem runOnRef_programGetlim (le : Bool) (d : RefDevice) (l : LimitReg) :
    (runOnRef le d (programGetlim l)).2 = ((.ok, toU16 (decodeTemp (d.limit l) .threshold)), d) := by
  cases l <;> rfl

/-- Settles O56: the limit register holds the encoding, whose threshold decode is the temperature cut to quarters. -/
theorem setlimThenGetlimOnTheReferenceDevice : Obligations.SetlimThenGetlimOnTheReferenceDevice := by
  unfold Obligations.SetlimThenGetlimOnTheReferenceDevice
  intro le d l t ht
  obtain ⟨-, -, -, hinRange⟩ := encodeLaws t
  obtain ⟨-, hdecode⟩ := hinRange ht
  rw [runOnRef_programSetlim]
  refine ⟨?_, withLimit_restore d _ l, limit_withLimit_of_ne d _, limit_withLimit_of_ne d _, limit_withLimit_of_ne d _⟩
  rw [runOnRef_programGetlim, limit_withLimit_same, hdecode]
  rfl

end Sys2Proof.Machine
end

section
/-! GETAMB, GETALERT and BEGIN (42_limits_identity.md R106 to R108). -/

namespace Sys2Proof.Machine

/-- Settles O27: GETAMB answers a read in the ambient style. -/
theorem getambAnswersTheAmbientDecode : Obligations.GetambAnswersTheAmbientDecode := by
  unfold Obligations.GetambAnswersTheAmbientDecode
  have ⟨herror, hedges⟩ : AnswersRead .getamb addrAmbient (signMagnitude .ambient) := answersRead_signMagnitude rfl
  exact ⟨decode_encode .getamb, herror, hedges, fun sel opnd => endsIllegal_of_bare rfl (by decide)⟩

/-- The cause code is what is left of the ambient word above bit 12 (42_limits_identity.md R107). -/
theorem alertCause_eq (v : Half) : alertCause v = v >>> 13 := by
  rw [alertCause, ← BitVec.toNat_inj, BitVec.toNat_setWidth, BitVec.extractLsb'_toNat, BitVec.toNat_ushiftRight,
    Nat.shiftRight_eq_div_pow]
  omega

/-- Settles O28: GETALERT answers a read by its top three bits. -/
theorem getalertAnswersTheCauseBits : Obligations.GetalertAnswersTheCauseBits := by
  unfold Obligations.GetalertAnswersTheCauseBits
  have ⟨herror, hedges⟩ : AnswersRead .getalert addrAmbient alertCause := answersRead_of_program rfl
  simp only [alertCause_eq] at hedges
  exact ⟨decode_encode .getalert, herror, hedges, fun sel opnd => endsIllegal_of_bare rfl (by decide)⟩

/-- Settles O29: both reads are issued, and the word kept of the first is compared beside the second. -/
theorem beginComparesBothIdentityWords : Obligations.BeginComparesBothIdentityWords := by
  unfold Obligations.BeginComparesBothIdentityWords
  refine ⟨decode_encode .beginCheck, endsOnErrorAnswer _, fun s => ⟨fun hs => ?_, fun h => ?_, fun h => ?_⟩,
    fun sel opnd => endsIllegal_of_bare rfl (by decide)⟩
  · exact exec_idle_request ⟨.rd16, addrManufacturerId, 0⟩ hs rfl
  · exact exec_firstRead (i := .beginCheck) h rfl rfl
  · exact exec_atSecondAnswer (i := .beginCheck) h rfl rfl

end Sys2Proof.Machine
end

section
/-! Errors (60_exceptions.md): a failed transaction's end (R115), the statuses a response shows (R111) and the statuses each
command ends with (R117). -/

namespace Sys2Proof.Machine

/-! ### Error entry, and no stop -/

/-- Settles O33: the edge in WAIT is `answerEdge`, which an error answer ends whatever command waits for it. -/
theorem failedTransactionEndsTheCommand : Obligations.FailedTransactionEndsTheCommand := by
  unfold Obligations.FailedTransactionEndsTheCommand
  intro s hr hs hv he
  have hwait : step s = answerEdge (programOfWord s.cmd) (sample s) := by simp [step_eq, hr, hs]
  rw [hwait]
  exact answerEdge_error hv he

/-- Settles O44: a consistent machine has a control, and every edge of a machine with a control goes on. -/
theorem consistentStepGoesOn : Obligations.ConsistentStepGoesOn := by
  unfold Obligations.ConsistentStepGoesOn
  intro s hcons
  obtain ⟨m, hm⟩ := (consistent_iff_control s).mp hcons
  obtain ⟨t, ht, -⟩ := step_control hm
  exact ⟨t, ht⟩

/-! ### The status shown -/

/-- The codes 5, 6 and 7 belong to no status (60_exceptions.md R111). -/
theorem statusCode_toNat_le (e : Status) : (statusCode e).toNat ≤ 4 := by
  cases e <;> decide

/-- The codes 1, 2 and 3 belong to the errors that come with datum 0 (60_exceptions.md R111, R112, R113, R115). -/
theorem statusCode_of_datumless {e : Status} (h : statusCode e = 1 ∨ statusCode e = 2 ∨ statusCode e = 3) :
    e ≠ .ok ∧ e ≠ .reservedCode := by
  constructor <;> rintro rfl <;> revert h <;> decide

/-- Settles O46: the port shows the response registers, which hold a status's code and the datum that goes with it. -/
theorem responsesShowAKnownStatus : Obligations.ResponsesShowAKnownStatus := by
  unfold Obligations.ResponsesShowAKnownStatus
  rintro s ⟨-, hresp⟩ hs
  obtain ⟨-, hstatus, hdata⟩ := outputs_resp hs
  obtain ⟨e, he, -, hdatum⟩ := hresp hs
  rw [hstatus, hdata, he]
  refine ⟨statusCode_toNat_le e, fun hcode => ?_⟩
  obtain ⟨hok, hreserved⟩ := statusCode_of_datumless hcode
  exact hdatum hok hreserved

/-! ### The table of statuses -/

/-- Lawful pseudocode at an end responds with one of its statuses. -/
theorem Program.Lawful.response_of_end {can : Status → Bool} {p : Program} {le : Bool} {answers : List Answer}
    {e : Status} {d : Half} (h : p.Lawful can) (hend : p.request le = none)
    (hresp : (p.transact le answers).response = some (e, d)) : can e = true := by
  cases p with
  | respond v => cases hresp; exact h
  | raise e' info => cases hresp; exact h.1
  | read8 | read16 | write8 | write16 => cases hend

/-- Lawful pseudocode responds with one of its statuses only, whatever the answers (60_exceptions.md R117, R118). -/
theorem Program.Lawful.response {can : Status → Bool} {p : Program} {le : Bool} {answers : List Answer} {e : Status}
    {d : Half} (h : p.Lawful can) (hresp : (p.transact le answers).response = some (e, d)) : can e = true := by
  induction answers generalizing p with
  | nil =>
    cases hreq : p.request le with
    | none => exact h.response_of_end hreq hresp
    | some r => simp [transact_nil hreq] at hresp
  | cons a as ih =>
    cases hreq : p.request le with
    | none => exact h.response_of_end hreq hresp
    | some r =>
      cases ha : a.err with
      | true =>
        rw [transact_error as hreq ha] at hresp
        cases hresp
        exact (h.request hreq).2
      | false =>
        obtain ⟨rest, hrest⟩ : ∃ rest, p.resume a.rdata = some rest := by
          rw [← Option.isSome_iff_exists, ← request_isSome_iff_resume p le, hreq]
          rfl
        rw [transact_good as hreq ha hrest] at hresp
        exact ih (h.resume hrest) hresp

/-- A command that takes a transaction issues a request when it is accepted (10_state.md R22). -/
theorem exists_request_of_maxTransactions {i : Instr} (le : Bool) (h : maxTransactions i ≠ 0) :
    ∃ r, (programOf i).request le = some r := by
  obtain ⟨n, hn⟩ := Nat.exists_eq_succ_of_ne_zero h
  have htakes := programOf_takes i
  rw [hn] at htakes
  obtain ⟨hend, -⟩ := htakes
  cases hp : programOf i with
  | respond | raise => simp [hp, Program.isEnd] at hend
  | read8 | read16 | write8 | write16 => exact ⟨_, rfl⟩

/-- Only GETRES has ReservedCode in its row of 60_exceptions.md R117. -/
theorem eq_getres_of_canEndWith {i : Instr} (h : canEndWith i .reservedCode = true) : i = .getres := by
  cases i with
  | getres => rfl
  | _ => cases h

/-- GETRES raises a byte above 3 as ReservedCode (41_config.md R99, 60_exceptions.md R114). -/
theorem transact_programGetres_of_reserved {le : Bool} {v : Half} (h : 3 < (lowByte v).toNat) :
    (programGetres.transact le [⟨false, v⟩]).response = some (.reservedCode, zext16 (lowByte v)) := by
  rw [transact_good (a := ⟨false, v⟩) [] rfl rfl (resume_programGetres_of_none (resStep_eq_none h))]
  rfl

/-- Settles O48: every command's pseudocode is lawful for its row of the table; an error answer to the first transaction
reaches TransportError, and a resolution byte of 4 reaches ReservedCode. -/
theorem commandsEndOnlyAsTheTableSays : Obligations.CommandsEndOnlyAsTheTableSays := by
  unfold Obligations.CommandsEndOnlyAsTheTableSays
  refine fun i le => ⟨fun answers e d hresp => (programOf_lawful i).response hresp, fun _ hmax => ?_, fun hcan => ?_⟩
  · obtain ⟨r, hr⟩ := exists_request_of_maxTransactions le hmax
    exact ⟨[⟨true, 0⟩], 0, by rw [transact_error [] hr rfl]⟩
  · cases eq_getres_of_canEndWith hcan
    exact ⟨[⟨false, 0x0004⟩], _, transact_programGetres_of_reserved (by decide)⟩

end Sys2Proof.Machine
end

section
/-! How many transactions a command issues (70_reset_and_hazards.md R141): pseudocode that takes `n` good answers to its end
issues at most `n` requests, and exactly `n` if it gets them. -/

namespace Sys2Proof.Machine

/-- Pseudocode at an end issues nothing and responds, whatever the answers. -/
theorem transact_of_isEnd {p : Program} (le : Bool) (answers : List Answer) (h : p.isEnd = true) :
    (p.transact le answers).requests = [] ∧ (p.transact le answers).response ≠ none := by
  cases p with
  | respond | raise => exact ⟨rfl, nofun⟩
  | read8 | read16 | write8 | write16 => cases h

/-- Pseudocode that is not at an end has a request to issue, and goes on with any good answer to it. -/
theorem exists_request_and_resume {p : Program} (le : Bool) (v : Half) (h : p.isEnd = false) :
    ∃ r rest, p.request le = some r ∧ p.resume v = some rest := by
  cases p with
  | respond | raise => cases h
  | read8 | read16 | write8 | write16 => exact ⟨_, _, rfl, rfl⟩

/-- An error answer or the want of an answer only cuts the requests short. -/
theorem Program.Takes.requests_length_le {n : ℕ} {p : Program} (h : p.Takes n) (le : Bool) (answers : List Answer) :
    (p.transact le answers).requests.length ≤ n := by
  induction n generalizing p answers with
  | zero => simp [(transact_of_isEnd le answers h).1]
  | succ n ih =>
    obtain ⟨hend, htakes⟩ := h
    cases answers with
    | nil =>
      obtain ⟨r, -, hreq, -⟩ := exists_request_and_resume le 0 hend
      simp [transact_nil hreq]
    | cons a as =>
      obtain ⟨r, rest, hreq, hrest⟩ := exists_request_and_resume le a.rdata hend
      cases ha : a.err with
      | true => simp [transact_error as hreq ha]
      | false => simpa [transact_good as hreq ha hrest] using ih (htakes _ _ hrest) as

/-- With enough answers and no error among them, every transaction is issued and the command responds. -/
theorem Program.Takes.transact_of_good_answers {n : ℕ} {p : Program} (h : p.Takes n) (le : Bool) {answers : List Answer}
    (hgood : ∀ a ∈ answers, a.err = false) (hlen : n ≤ answers.length) :
    (p.transact le answers).requests.length = n ∧ (p.transact le answers).response ≠ none := by
  induction n generalizing p answers with
  | zero =>
    obtain ⟨hnone, hresp⟩ := transact_of_isEnd le answers h
    exact ⟨by rw [hnone, List.length_nil], hresp⟩
  | succ n ih =>
    obtain ⟨hend, htakes⟩ := h
    cases answers with
    | nil => simp at hlen
    | cons a as =>
      obtain ⟨ha, has⟩ := List.forall_mem_cons.mp hgood
      obtain ⟨r, rest, hreq, hrest⟩ := exists_request_and_resume le a.rdata hend
      obtain ⟨hcount, hresp⟩ := ih (htakes _ _ hrest) has (Nat.le_of_succ_le_succ hlen)
      rw [transact_good as hreq ha hrest]
      exact ⟨congrArg (· + 1) hcount, hresp⟩

/-- Settles O47: a command's pseudocode takes the transactions of R141, and an illegal word's is at its end. -/
theorem transactionCounts : Obligations.TransactionCounts := by
  unfold Obligations.TransactionCounts
  exact fun i le answers => ⟨(transact_of_isEnd le answers rfl).1, (programOf_takes i).requests_length_le le answers,
    (programOf_takes i).transact_of_good_answers le⟩

end Sys2Proof.Machine
end
